-- ==== Sys2Proof/Word.lean ====
section
/-! DEFINITION. The word types of the STSYN block (00_scope.md R7, R8): every register is 32 bits, and a binary32
value is its 32-bit pattern. -/

namespace Sys2Proof

/-- A 32-bit register or bus word (R7). -/
abbrev Word := BitVec 32

/-- The bit pattern of an IEEE 754 binary32 value (R8): bit 31 sign, bits 30:23 exponent, bits 22:0 fraction. -/
abbrev F32 := BitVec 32

/-- One byte lane of the bus (20_memory.md R63). -/
abbrev Byte := BitVec 8

end Sys2Proof
end

