-- ==== Sys2Proof/Config.lean ====
section
/-! DEFINITION. What the spec leaves to the realisation: the parameters of 00_scope.md R6 (a record of plain data that
State carries, so that every claim quantifies over it) and the two free values, which have no body. -/

namespace Sys2Proof

/-- The parameters of R6, but for N_OSC, which is the length of the slot file, and FRAME_LATENCY, which no model of atomic
steps has (R300). DESIGN CHOICE, log entry 1. -/
structure Params where
  /-- EVQ_DEPTH, the entries of the event FIFO. -/
  evqDepth : Nat
  /-- FM_EPS, the frequency a degenerate FM frame uses. -/
  fmEps : F32
  /-- SINE_FN, as the list of the arguments at which it differs from SINE_REF, each with its value. Every function on
  binary32 is such a list, since binary32 is finite. -/
  sine : List (F32 × F32)
  /-- SINE_TOL, the tolerance of R125 (c), a binary32 value: DESIGN CHOICE, log entry 19, since R6 gives it no type. -/
  sineTol : F32
  /-- BASE, the byte address of the register window. -/
  base : Nat
deriving DecidableEq, Repr

/-- The defaults of R6. R6 gives BASE none: DESIGN CHOICE 0, log entry 1 (no step reads it). -/
def Params.default : Params :=
  { evqDepth := 64, fmEps := 0x34000000#32, sine := [], sineTol := 0x00000000#32, base := 0 }

/-- The operations of R9 that can give a NaN. -/
inductive FloatOp where
  | add
  | sub
  | mul
  | div
  | rem
  | sine
deriving DecidableEq, Repr

/-- FREE VALUE, log entry 3: R8 and R9 do not say which of the NaN patterns an operation returns. -/
opaque Config.nanBits : FloatOp → F32 → F32 → F32

/-- FREE VALUE, log entry 5: what the oscillator would return for a reserved KIND, which "never reaches the oscillator"
(40_oscillator.md R121). The arguments are the code, the position, the rate and the frequency. -/
opaque Config.reservedKindSample : BitVec 3 → F32 → F32 → F32 → F32

end Sys2Proof
end

