-- ==== Sys2Proof/Machine/Float32.lean ====
section
/-! DEFINITION. The binary32 primitives of 00_scope.md R8 to R10: each operation converts its operands to integers in units
of 2^-149, computes exactly, and rounds once to nearest, ties to even. -/

namespace Sys2Proof.Machine

/-! ### Fields and classes (R8) -/

/-- The sign bit. -/
def fSign (x : F32) : Bool := decide (2 ^ 31 ≤ x.toNat)

/-- The exponent and fraction fields, as one number: it orders the magnitudes. -/
def fMag (x : F32) : Nat := x.toNat % 2 ^ 31

def isNaN (x : F32) : Bool := decide (0x7F800000 < fMag x)

def isInf (x : F32) : Bool := decide (fMag x = 0x7F800000)

def isFinite (x : F32) : Bool := decide (fMag x < 0x7F800000)

def isZero (x : F32) : Bool := decide (fMag x = 0)

/-- The magnitude of a finite value in units of 2^-149, an exact integer. -/
def fUnits (x : F32) : Nat :=
  if fMag x < 2 ^ 23 then fMag x else (2 ^ 23 + fMag x % 2 ^ 23) * 2 ^ (fMag x / 2 ^ 23 - 1)

/-- The finite value in units of 2^-149, with its sign. -/
def fInt (x : F32) : Int := if fSign x then -(fUnits x : Int) else fUnits x

/-- A pattern from a sign and the exponent and fraction fields. -/
def packSign (neg : Bool) (mag : Nat) : F32 := BitVec.ofNat 32 (if neg then 2 ^ 31 + mag else mag)

/-! ### Rounding (R9) -/

/-- The integer nearest to `n / d`, ties to even. -/
def rne (n d : Nat) : Nat :=
  if d < 2 * (n % d) ∨ (2 * (n % d) = d ∧ n / d % 2 = 1) then n / d + 1 else n / d

/-- How many binades the value `n / d` (in units of 2^-149) lies above the one whose unit in the last place is 2^-149. -/
def binade (n d : Nat) : Nat := Nat.log2 (n / d) - 23

/-- The exponent and fraction fields of `n / d` units of 2^-149 rounded to nearest, ties to even. A fraction that rounds
up to 2^24 carries into the exponent field, and a value too large gives the fields of infinity. -/
def roundMag (n d : Nat) : Nat :=
  min (binade n d * 2 ^ 23 + rne n (d * 2 ^ binade n d)) 0x7F800000

/-- A NaN result: a quiet NaN whose sign and payload are free, for each operation and its operands (DESIGN CHOICE, log entry
3). -/
def nanOf (op : FloatOp) (a b : F32) : F32 := Config.nanBits op a b ||| 0x7FC00000#32

/-! ### Constants (R10) -/

def ONE : F32 := 0x3F800000#32
def HALF : F32 := 0x3F000000#32
def QUARTER : F32 := 0x3E800000#32
def TWO : F32 := 0x40000000#32
def FOUR : F32 := 0x40800000#32
def PI32 : F32 := 0x40490FDB#32
def INF : F32 := 0x7F800000#32
/-- `+0.0`. -/
def ZERO : F32 := 0x00000000#32

/-! ### Operations (R9) -/

def fneg (x : F32) : F32 := x ^^^ 0x80000000#32

/-- "`fabs(a)` clears the sign bit" (R9). -/
def fabs (x : F32) : F32 := x &&& 0x7FFFFFFF#32

/-- The IEEE sum. An exact sum of zero is `+0.0` unless both operands are negative. -/
def fadd (a b : F32) : F32 :=
  if isNaN a || isNaN b then nanOf .add a b
  else if isInf a then (if isInf b && fSign a != fSign b then nanOf .add a b else a)
  else if isInf b then b
  else if fInt a + fInt b = 0 then packSign (fSign a && fSign b) 0
  else packSign (decide (fInt a + fInt b < 0)) (roundMag (fInt a + fInt b).natAbs 1)

/-- The IEEE difference: the sum with `-b`. Its NaN pattern is free in its own right and not that of a sum (log entry 3). -/
def fsub (a b : F32) : F32 :=
  if isNaN a || isNaN b || (isInf a && isInf b && fSign a == fSign b) then nanOf .sub a b else fadd a (fneg b)

def fmul (a b : F32) : F32 :=
  if isNaN a || isNaN b then nanOf .mul a b
  else if isInf a || isInf b then
    (if isZero a || isZero b then nanOf .mul a b else packSign (fSign a != fSign b) 0x7F800000)
  else packSign (fSign a != fSign b) (roundMag (fUnits a * fUnits b) (2 ^ 149))

def fdiv (a b : F32) : F32 :=
  if isNaN a || isNaN b then nanOf .div a b
  else if isInf a then (if isInf b then nanOf .div a b else packSign (fSign a != fSign b) 0x7F800000)
  else if isInf b then packSign (fSign a != fSign b) 0
  else if isZero b then (if isZero a then nanOf .div a b else packSign (fSign a != fSign b) 0x7F800000)
  else packSign (fSign a != fSign b) (roundMag (fUnits a * 2 ^ 149) (fUnits b))

/-- The remainder with truncation: exact, with the sign of `a`; `fmodx(a, ±inf) = a` for finite `a` (R9). -/
def fmodx (a b : F32) : F32 :=
  if isNaN a || isNaN b then nanOf .rem a b
  else if isInf a || isZero b then nanOf .rem a b
  else if isInf b then a
  else packSign (fSign a) (roundMag (fUnits a % fUnits b) 1)

/-- The order of two patterns that are no NaN, with the two zeros equal. -/
def fKey (x : F32) : Int := if fSign x then -(fMag x : Int) else fMag x

/-- `a < b`, false whenever an operand is NaN (R9). -/
def flt (a b : F32) : Bool := !isNaN a && !isNaN b && decide (fKey a < fKey b)

/-- `a <= b`. -/
def fle (a b : F32) : Bool := !isNaN a && !isNaN b && decide (fKey a ≤ fKey b)

/-- `a = b`, with `+0.0 = -0.0`. -/
def feq (a b : F32) : Bool := !isNaN a && !isNaN b && decide (fKey a = fKey b)

/-- `a > b`. -/
def fgt (a b : F32) : Bool := flt b a

/-- `a >= b`. -/
def fge (a b : F32) : Bool := fle b a

/-- `float(n)`: a non-negative integer as binary32, exact for `n <= 2^24` (R9). -/
def float (n : Nat) : F32 := packSign false (roundMag (n * 2 ^ 149) 1)

/-- `fceil(q)`: the smallest integer `>= q`, unbounded, for finite `q` (R9). -/
def fceil (q : F32) : Int := -((-(fInt q)) / 2 ^ 149)

/-- `sat32(n)` (R11). -/
def sat32 (n : Nat) : Word := BitVec.ofNat 32 (min n (2 ^ 32 - 1))

/-- The binary32 value nearest to `n / d`, ties to even: `f:<decimal>` of 30_encoding.md R110. -/
def ofRatio (neg : Bool) (n d : Nat) : F32 := packSign neg (roundMag (n * 2 ^ 149) d)

/-! ### Ranges the rules name -/

/-- A number in [-1.0, 1.0], not NaN. -/
def inUnit (x : F32) : Bool := fle (fneg ONE) x && fle x ONE

/-- A number in [0.0, 1.0], not NaN (`-0.0` compares equal to `0.0`): the test of 60_exceptions.md R252 codes 0x08, 0x09. -/
def inUnitPos (x : F32) : Bool := fle ZERO x && fle x ONE

/-- `f > 0.0 and f != +INF`: the test of R252 code 0x05. -/
def isPosFinite (f : F32) : Bool := fgt f ZERO && !feq f INF

/-- A non-negative integer-valued binary32 in [+0.0, 2^24], never -0.0 (10_state.md R31). -/
def isClock (x : F32) : Bool := decide (x.toNat ≤ 0x4B800000) && decide (fUnits x % 2 ^ 149 = 0)

end Sys2Proof.Machine
end

