-- ==== Sys2Proof/Syntax.lean ====
section
/-! DEFINITION. The operations of the block, one constructor for each row of spec/opcode_table.json. The block has no
instruction set (30_encoding.md): its instructions are the words a host writes and the codes that select an operation. -/

namespace Sys2Proof

/-- The operands of the oscillator (40_oscillator.md R120): the sample position, the sample rate and the frequency. The
encoding of a KIND code carries none of them; the caller of the oscillator supplies them. -/
structure OscArgs where
  pos : F32
  sr : F32
  f : F32
deriving DecidableEq, Repr

/-- The register that holds a KIND code (R97): the KIND register of a slot, or the field VKIND of CTRL. -/
inductive KindLoc where
  | slot (i : Nat)
  | vkind
deriving DecidableEq, Repr

/-- The rows of the opcode table. -/
inductive Instr where
  /-- CMD 0x00000001 (47_commands.md R221). -/
  | start
  /-- CMD 0x00000002 (R224). -/
  | stop
  /-- CMD 0x00000003 (R225). -/
  | tick
  /-- CMD 0x00000004 (R226). -/
  | flush
  /-- CMD 0x00000005 (R228). -/
  | clrcnt
  /-- CMD 0x00000006 (R229). -/
  | softreset
  /-- Any other CMD word (R227). -/
  | cmdReserved (w : Word)
  /-- An event of TYPE 1 (44_poly_mixer.md R178). -/
  | noteOn (note vel : BitVec 7)
  /-- An event of TYPE 2 (R179). Its VEL is stored and never read (R177). -/
  | noteOff (note vel : BitVec 7)
  /-- An event word of TYPE 0 (R177). -/
  | evtReservedType0
  /-- An event word of TYPE 3 (R177). -/
  | evtReservedType3
  /-- KIND 0 (40_oscillator.md R126). -/
  | silence (a : OscArgs)
  /-- KIND 1 (R127). -/
  | sine (a : OscArgs)
  /-- KIND 2 (R128). -/
  | square (a : OscArgs)
  /-- KIND 3 (R129). -/
  | sawtooth (a : OscArgs)
  /-- KIND 4 (R130). -/
  | triangle (a : OscArgs)
  /-- KIND 5 (R131). -/
  | onoff (a : OscArgs)
  /-- KIND 6 (60_exceptions.md R252). -/
  | kindReserved6 (loc : KindLoc)
  /-- KIND 7 (R252). -/
  | kindReserved7 (loc : KindLoc)
  /-- MODE 0 (46_frame_pipeline.md R202). -/
  | modeMix
  /-- MODE 1 (43_fm_composer.md R163). -/
  | modeFm
  /-- MODE 2 (44_poly_mixer.md R182). -/
  | modePoly
  /-- MODE 3 (R252). -/
  | modeReserved3
  /-- PSTRAT 0 (42_amplitude_normalizer.md R150). -/
  | peakFast
  /-- PSTRAT 1 (R151). -/
  | peakExact
  /-- FEN 0 (45_lowpass_filter.md R192). -/
  | filterBypass
  /-- FEN 1 (R191). -/
  | filterUpdate
  /-- FEN 1, ACALC 0 (R194). -/
  | alphaDirect
  /-- FEN 1, ACALC 1 (R190). -/
  | alphaDerive
  /-- A pulse on the tick port (46_frame_pipeline.md R200, R201). -/
  | frame
  /-- An EVT word offered to the FIFO (44_poly_mixer.md R177). -/
  | push (w : Word)
deriving DecidableEq, Repr

end Sys2Proof
end

