-- ==== Sys2Proof/Machine/State.lean ====
section
/-! DEFINITION. The state of the block (10_state.md) as plain data, the reasons a step can stop, and the state after reset
(70_reset_and_hazards.md R280). -/

namespace Sys2Proof.Machine

/-- The stored bits of STATUS (R24). EVQE and EVQF are views of the FIFO and are not stored. -/
structure Status where
  run : Bool := false
  cfgerr : Bool := false
  lockerr : Bool := false
  evqovf : Bool := false
  evterr : Bool := false
  cmderr : Bool := false
  accerr : Bool := false
  degen : Bool := false
deriving DecidableEq, Repr

/-- One oscillator slot (R40). -/
structure OscSlot where
  kind : BitVec 3 := 0#3
  freq : F32 := 0x00000000#32
  depth : F32 := 0x00000000#32
deriving DecidableEq, Repr

/-- One entry of the voice table (R41). -/
structure Voice where
  active : Bool := false
  loud : F32 := 0x00000000#32
deriving DecidableEq, Repr

/-- One entry of the event FIFO (R43, 44_poly_mixer.md R177): a word of a reserved TYPE is never enqueued. A NoteOff's VEL
is stored and never read. -/
inductive Event where
  | on (note vel : BitVec 7)
  | off (note vel : BitVec 7)
deriving DecidableEq, Repr

/-- A request of one of the agents (20_memory.md R60, R61), or a change of the level of the input `rst`. An offset is
`bus_addr[11:0]`, a size `bus_size[1:0]` (0 byte, 1 halfword, 2 word). -/
inductive Input where
  | read (offset : BitVec 12) (size : BitVec 2)
  | write (offset : BitVec 12) (size : BitVec 2) (data : Word)
  | evtPush (data : Word)
  | tick
  | rst (level : Bool)
deriving DecidableEq, Repr

/-- The state of the block. -/
structure State where
  /-- The parameters of 00_scope.md R6; no step changes them (R284). Log entry 1. -/
  par : Params
  /-- The level of the input `rst` (R60, R281). -/
  rst : Bool
  /-- CTRL[7:0] (R23); bits [31:8] read 0. -/
  ctrl : BitVec 8
  /-- The stored bits of STATUS (R24). -/
  status : Status
  /-- ERRCODE (R25). -/
  errcode : Word
  /-- SRATE (R26). -/
  srate : Word
  /-- CLKMOD (R27). -/
  clkmod : Word
  /-- VOLUME (R28). -/
  volume : F32
  /-- CUTOFF (R29). -/
  cutoff : F32
  /-- ALPHA (R32). -/
  alpha : F32
  /-- CLK (R30). -/
  clk : F32
  /-- FSTATE (R33). -/
  fstate : F32
  /-- PEAK (R34). -/
  peak : F32
  /-- CPERIOD (R35). -/
  cperiod : Word
  /-- DEGCNT (R36). -/
  degcnt : Word
  /-- FRAMECNT (R50). -/
  framecnt : Word
  /-- MIXOUT (R37). -/
  mixout : F32
  /-- OUT (R38), also the port `out_sample`. -/
  out : F32
  /-- LOUDSUM (R39). -/
  loudsum : F32
  /-- The slots OSC[0..N_OSC-1] (R40); N_OSC is the length of the list. -/
  osc : List OscSlot
  /-- The voice table (R41). -/
  voice : Vector Voice 128
  /-- The event FIFO, head first (R43). -/
  fifo : List Event
  /-- MODEL'S OWN: the value on the wire between two operations of the frame datapath (log entry 7). -/
  dp : F32
  /-- MODEL'S OWN: what `bus_rdata` drove in the last step, if it was a read (R60, log entry 8). -/
  rdata : Option Word
  /-- Whether `out_valid` pulsed in the last step (R60, 46_frame_pipeline.md R213). -/
  outValid : Bool
  /-- MODEL'S OWN: the requests not yet performed, in the total order of 20_memory.md R72 (log entry 2). -/
  pending : List Input
deriving DecidableEq, Repr

/-- Why the machine stops. -/
inductive Fault where
  /-- Raised by a frame while CTRL.MODE = 3: "CTRL.MODE = 3 cannot be running (START refuses it)" (46_frame_pipeline.md
  R201), so no run reaches it. Safe: the model stops where the spec gives no frame. Log entry 6. -/
  | reservedModeFrame
deriving DecidableEq, Repr

/-- Why the model has no meaning for an operation. -/
inductive Refusal where
  /-- An instruction of the table that the model does not give a meaning. No arm of `exec` answers it. Safe. -/
  | notModelled (mnemonic : String)
deriving DecidableEq, Repr

/-- The table of R280 for a block with the given parameters and number of slots, with the input line `rst` at a level and the
requests still to come. -/
def State.resetWith (p : Params) (nOsc : Nat) (level : Bool) (todo : List Input) : State :=
  { par := p, rst := level, ctrl := 0#8, status := {}, errcode := 0#32, srate := 48000#32, clkmod := 0#32
    volume := 0x3F800000#32, cutoff := 0x00000000#32, alpha := 0x3F800000#32, clk := 0x00000000#32
    fstate := 0x00000000#32, peak := 0x00000000#32, cperiod := 0#32, degcnt := 0#32, framecnt := 0#32
    mixout := 0x00000000#32, out := 0x00000000#32, loudsum := 0x00000000#32, osc := List.replicate nOsc {}
    voice := Vector.replicate 128 {}, fifo := [], dp := 0x00000000#32, rdata := none, outValid := false, pending := todo }

/-- The machine right after reset, with the default parameters of R6 and nothing requested yet. -/
def State.reset : State := State.resetWith Params.default 8 false []

end Sys2Proof.Machine
end

