-- ==== Sys2Proof/Machine/Operands.lean ====
section
/-! DEFINITION. The operand forms: the fields of CTRL (30_encoding.md R92), the sample rate as a number (10_state.md R26), the
views of the voice table and the FIFO, and the register map of the window (R90, R91). -/

namespace Sys2Proof.Machine

/-! ### Fields of CTRL (R92) -/

/-- MODE = CTRL[1:0]. -/
def ctrlMode (c : BitVec 8) : BitVec 2 := c.extractLsb' 0 2
/-- FEN = CTRL[2]. -/
def ctrlFen (c : BitVec 8) : Bool := c.getLsbD 2
/-- ACALC = CTRL[3]. -/
def ctrlAcalc (c : BitVec 8) : Bool := c.getLsbD 3
/-- PSTRAT = CTRL[4]. -/
def ctrlPstrat (c : BitVec 8) : Bool := c.getLsbD 4
/-- VKIND = CTRL[7:5]. -/
def ctrlVkind (c : BitVec 8) : BitVec 3 := c.extractLsb' 5 3

/-! ### Numbers and views -/

/-- `SR = float(SRATE)` (00_scope.md R11, 10_state.md R26). -/
def sampleRate (s : State) : F32 := float s.srate.toNat

/-- NVOICE (R42): the number of active entries of the voice table. -/
def nvoice (s : State) : Nat := s.voice.toList.countP (·.active)

/-- The loudness and activity of note `n` (R41). -/
def voiceAt (s : State) (n : BitVec 7) : Voice := s.voice[n.toNat]

/-- VACT[w] (R95): bit `b` is `VOICE[32·w + b].ACTIVE`. -/
def vactWord (s : State) (w : Nat) : Word :=
  (List.range 32).foldl
    (fun acc b => if (s.voice.toList.getD (32 * w + b) {}).active then acc ||| BitVec.ofNat 32 (2 ^ b) else acc) 0#32

/-- PARAMS (R44): `{EVQ_DEPTH[9:0], N_OSC[7:0]}`, zero-extended. -/
def paramsWord (s : State) : Word :=
  BitVec.ofNat 32 (s.par.evqDepth % 1024 * 256 + s.osc.length % 256)

/-- ID (R44). -/
def idWord : Word := 0x53540001#32

/-! ### The register map (R90, R91) -/

/-- The registers of the window. -/
inductive Reg where
  | id
  | params
  | ctrl
  | status
  | cmd
  | evt
  | srate
  | clkmod
  | volume
  | cutoff
  | alpha
  | clk
  | fstate
  | peak
  | cperiod
  | degcnt
  | mixout
  | out
  | loudsum
  | evqcnt
  | nvoice
  | errcode
  | framecnt
  | oscKind (i : Nat)
  | oscFreq (i : Nat)
  | oscDepth (i : Nat)
  | vact (w : Nat)
  | vloud (n : Nat)
deriving DecidableEq, Repr

/-- The registers at offsets 0x000 to 0x058, in the order of the map. -/
def plainRegs : List Reg :=
  [.id, .params, .ctrl, .status, .cmd, .evt, .srate, .clkmod, .volume, .cutoff, .alpha, .clk, .fstate, .peak, .cperiod,
   .degcnt, .mixout, .out, .loudsum, .evqcnt, .nvoice, .errcode, .framecnt]

/-- The register at a slot's word `k`, where the slot exists; the fourth word of a slot is reserved (R91). -/
def slotReg (nOsc i k : Nat) : Option Reg :=
  if nOsc ≤ i then none
  else match k with
    | 0 => some (.oscKind i)
    | 1 => some (.oscFreq i)
    | 2 => some (.oscDepth i)
    | _ => none

/-- The register at word `k` of the window (offset 4·k) of a block with `nOsc` slots, or none where the offset is reserved. -/
def regAtWord (nOsc k : Nat) : Option Reg :=
  if k < 0x40 then plainRegs[k]?
  else if k < 0x80 then slotReg nOsc ((k - 0x40) / 4) ((k - 0x40) % 4)
  else if k < 0x84 then some (.vact (k - 0x80))
  else if k < 0x100 then none
  else if k < 0x180 then some (.vloud (k - 0x100))
  else none

/-- Only an aligned word access is defined (20_memory.md R64). -/
def accessDefined (offset : BitVec 12) (size : BitVec 2) : Bool := decide (size = 2#2) && decide (offset.toNat % 4 = 0)

/-- The register an access reaches: none for an access of the wrong size or alignment (R64) or at a reserved offset (R91). -/
def regOf (s : State) (offset : BitVec 12) (size : BitVec 2) : Option Reg :=
  if accessDefined offset size then regAtWord s.osc.length (offset.toNat / 4) else none

/-- The offset of a register (R90). -/
def Reg.offset : Reg → BitVec 12
  | .id => 0x000#12
  | .params => 0x004#12
  | .ctrl => 0x008#12
  | .status => 0x00C#12
  | .cmd => 0x010#12
  | .evt => 0x014#12
  | .srate => 0x018#12
  | .clkmod => 0x01C#12
  | .volume => 0x020#12
  | .cutoff => 0x024#12
  | .alpha => 0x028#12
  | .clk => 0x02C#12
  | .fstate => 0x030#12
  | .peak => 0x034#12
  | .cperiod => 0x038#12
  | .degcnt => 0x03C#12
  | .mixout => 0x040#12
  | .out => 0x044#12
  | .loudsum => 0x048#12
  | .evqcnt => 0x04C#12
  | .nvoice => 0x050#12
  | .errcode => 0x054#12
  | .framecnt => 0x058#12
  | .oscKind i => BitVec.ofNat 12 (0x100 + 16 * i)
  | .oscFreq i => BitVec.ofNat 12 (0x104 + 16 * i)
  | .oscDepth i => BitVec.ofNat 12 (0x108 + 16 * i)
  | .vact w => BitVec.ofNat 12 (0x200 + 4 * w)
  | .vloud n => BitVec.ofNat 12 (0x400 + 4 * n)

/-- The indices R90 gives a register, for a block with `nOsc` slots. -/
def Reg.inMap (nOsc : Nat) : Reg → Bool
  | .oscKind i | .oscFreq i | .oscDepth i => decide (i < nOsc)
  | .vact w => decide (w < 4)
  | .vloud n => decide (n < 128)
  | _ => true

/-- The locked set (10_state.md R49). -/
def Reg.locked : Reg → Bool
  | .ctrl | .srate | .clkmod | .volume | .cutoff | .alpha | .oscKind _ | .oscFreq _ | .oscDepth _ => true
  | _ => false

/-- The read-only registers (20_memory.md R65). -/
def Reg.readOnly : Reg → Bool
  | .id | .params | .errcode | .clk | .fstate | .peak | .cperiod | .degcnt | .mixout | .out | .loudsum | .evqcnt
  | .nvoice | .framecnt | .vact _ | .vloud _ => true
  | _ => false

end Sys2Proof.Machine
end

