-- ==== Sys2Proof/Machine/Flags.lean ====
section
/-! DEFINITION. The flags: the bits of STATUS (10_state.md R24, 30_encoding.md R93), the word a read of STATUS returns, how an
error sets its sticky bit (60_exceptions.md R251) and how a write clears sticky bits (20_memory.md R67). -/

namespace Sys2Proof.Machine

/-- The sticky bits of STATUS (R251). -/
inductive Err where
  | cfgerr
  | lockerr
  | evqovf
  | evterr
  | cmderr
  | accerr
  | degen
deriving DecidableEq, Repr

/-- The sticky bit of an error becomes 1; a bit already set stays set (R250). -/
def stickySet (e : Err) (f : Status) : Status :=
  match e with
  | .cfgerr => { f with cfgerr := true }
  | .lockerr => { f with lockerr := true }
  | .evqovf => { f with evqovf := true }
  | .evterr => { f with evterr := true }
  | .cmderr => { f with cmderr := true }
  | .accerr => { f with accerr := true }
  | .degen => { f with degen := true }

/-- Write 1 to clear, bits [14:8]; every other bit of the data is ignored (R67). -/
def stickyClear (w : Word) (f : Status) : Status :=
  { f with
    cfgerr := f.cfgerr && !w.getLsbD 8
    lockerr := f.lockerr && !w.getLsbD 9
    evqovf := f.evqovf && !w.getLsbD 10
    evterr := f.evterr && !w.getLsbD 11
    cmderr := f.cmderr && !w.getLsbD 12
    accerr := f.accerr && !w.getLsbD 13
    degen := f.degen && !w.getLsbD 14 }

/-- EVQE (R24): the FIFO is empty. -/
def evqe (s : State) : Bool := s.fifo.isEmpty

/-- EVQF (R24): the FIFO holds EVQ_DEPTH entries; also the port `evt_full` (R60). -/
def evqf (s : State) : Bool := decide (s.fifo.length = s.par.evqDepth)

/-- A word with one bit set or none. -/
def bitWord (i : Nat) (b : Bool) : Word := if b then BitVec.ofNat 32 (2 ^ i) else 0#32

/-- STATUS as a read returns it (R93): the reserved bits are 0. -/
def statusWord (s : State) : Word :=
  bitWord 0 s.status.run ||| bitWord 1 (evqe s) ||| bitWord 2 (evqf s) ||| bitWord 8 s.status.cfgerr
    ||| bitWord 9 s.status.lockerr ||| bitWord 10 s.status.evqovf ||| bitWord 11 s.status.evterr
    ||| bitWord 12 s.status.cmderr ||| bitWord 13 s.status.accerr ||| bitWord 14 s.status.degen

end Sys2Proof.Machine
end

