-- ==== Sys2Proof/Machine/Roms.lean ====
section
/-! DEFINITION. The two ROMs of 44_poly_mixer.md, transcribed from the normative tables of R175 and R176. -/

namespace Sys2Proof.Machine

/-- Rows 0 to 24 of the table of R175. -/
def loudRom0 : List F32 :=
  [0x00000000#32, 0x38820610#32, 0x39820610#32, 0x3A1246D2#32, 0x3A820610#32, 0x3ACB2979#32, 0x3B1246D2#32, 0x3B471949#32,
   0x3B820610#32, 0x3BA48FAE#32, 0x3BCB2979#32, 0x3BF5D378#32, 0x3C1246D2#32, 0x3C2BAC02#32, 0x3C471949#32, 0x3C648EA9#32,
   0x3C820610#32, 0x3C92C8D8#32, 0x3CA48FAE#32, 0x3CB75A8D#32, 0x3CCB2979#32, 0x3CDFFC71#32, 0x3CF5D378#32, 0x3D065744#32,
   0x3D1246D2#32, 0x3D1EB866#32, 0x3D2BAC02#32, 0x3D3921A2#32, 0x3D471949#32, 0x3D5592F5#32, 0x3D648EA9#32, 0x3D740C62#32]

/-- Rows 32 to 56 of the table of R175. -/
def loudRom1 : List F32 :=
  [0x3D820610#32, 0x3D8A46F2#32, 0x3D92C8D8#32, 0x3D9B8BC0#32, 0x3DA48FAE#32, 0x3DADD49C#32, 0x3DB75A8D#32, 0x3DC12182#32,
   0x3DCB2979#32, 0x3DD57274#32, 0x3DDFFC71#32, 0x3DEAC772#32, 0x3DF5D378#32, 0x3E00903F#32, 0x3E065744#32, 0x3E0C3ECA#32,
   0x3E1246D2#32, 0x3E186F5B#32, 0x3E1EB866#32, 0x3E2521F3#32, 0x3E2BAC02#32, 0x3E325691#32, 0x3E3921A2#32, 0x3E400D35#32,
   0x3E471949#32, 0x3E4E45DE#32, 0x3E5592F5#32, 0x3E5D008D#32, 0x3E648EA9#32, 0x3E6C3D45#32, 0x3E740C62#32, 0x3E7BFC00#32]

/-- Rows 64 to 88 of the table of R175. -/
def loudRom2 : List F32 :=
  [0x3E820610#32, 0x3E861E61#32, 0x3E8A46F2#32, 0x3E8E7FC5#32, 0x3E92C8D8#32, 0x3E97222B#32, 0x3E9B8BC0#32, 0x3EA00595#32,
   0x3EA48FAE#32, 0x3EA92A04#32, 0x3EADD49C#32, 0x3EB28F74#32, 0x3EB75A8D#32, 0x3EBC35E7#32, 0x3EC12182#32, 0x3EC61D5D#32,
   0x3ECB2979#32, 0x3ED045D6#32, 0x3ED57274#32, 0x3EDAAF52#32, 0x3EDFFC71#32, 0x3EE559D1#32, 0x3EEAC772#32, 0x3EF04553#32,
   0x3EF5D378#32, 0x3EFB71DB#32, 0x3F00903F#32, 0x3F036FB1#32, 0x3F065744#32, 0x3F0946F7#32, 0x3F0C3ECA#32, 0x3F0F3EBE#32]

/-- Rows 96 to 120 of the table of R175. -/
def loudRom3 : List F32 :=
  [0x3F1246D2#32, 0x3F155707#32, 0x3F186F5B#32, 0x3F1B8FD1#32, 0x3F1EB866#32, 0x3F21E91C#32, 0x3F2521F3#32, 0x3F2862E9#32,
   0x3F2BAC02#32, 0x3F2EFD3A#32, 0x3F325691#32, 0x3F35B80A#32, 0x3F3921A2#32, 0x3F3C935B#32, 0x3F400D35#32, 0x3F438F2F#32,
   0x3F471949#32, 0x3F4AAB83#32, 0x3F4E45DE#32, 0x3F51E859#32, 0x3F5592F5#32, 0x3F5945B1#32, 0x3F5D008D#32, 0x3F60C38A#32,
   0x3F648EA9#32, 0x3F6861E7#32, 0x3F6C3D45#32, 0x3F7020C3#32, 0x3F740C62#32, 0x3F780021#32, 0x3F7BFC00#32, 0x3F800000#32]

/-- LOUD_ROM (R175): 128 entries. -/
def loudTable : List F32 := loudRom0 ++ loudRom1 ++ loudRom2 ++ loudRom3

/-- Rows 0 to 24 of the table of R176. -/
def noteRom0 : List F32 :=
  [0x4102D013#32, 0x410A9760#32, 0x4112D517#32, 0x411B9041#32, 0x4124D054#32, 0x412E9D37#32, 0x4138FF49#32, 0x4143FF6A#32,
   0x414FA700#32, 0x415C0000#32, 0x416914F6#32, 0x4176F110#32, 0x4182D013#32, 0x418A9760#32, 0x4192D517#32, 0x419B9041#32,
   0x41A4D054#32, 0x41AE9D37#32, 0x41B8FF49#32, 0x41C3FF6A#32, 0x41CFA700#32, 0x41DC0000#32, 0x41E914F6#32, 0x41F6F110#32,
   0x4202D013#32, 0x420A9760#32, 0x4212D517#32, 0x421B9041#32, 0x4224D054#32, 0x422E9D37#32, 0x4238FF49#32, 0x4243FF6A#32]

/-- Rows 32 to 56 of the table of R176. -/
def noteRom1 : List F32 :=
  [0x424FA700#32, 0x425C0000#32, 0x426914F6#32, 0x4276F110#32, 0x4282D013#32, 0x428A9760#32, 0x4292D517#32, 0x429B9041#32,
   0x42A4D054#32, 0x42AE9D37#32, 0x42B8FF49#32, 0x42C3FF6A#32, 0x42CFA700#32, 0x42DC0000#32, 0x42E914F6#32, 0x42F6F110#32,
   0x4302D013#32, 0x430A9760#32, 0x4312D517#32, 0x431B9041#32, 0x4324D054#32, 0x432E9D37#32, 0x4338FF49#32, 0x4343FF6A#32,
   0x434FA700#32, 0x435C0000#32, 0x436914F6#32, 0x4376F110#32, 0x4382D013#32, 0x438A9760#32, 0x4392D517#32, 0x439B9041#32]

/-- Rows 64 to 88 of the table of R176. -/
def noteRom2 : List F32 :=
  [0x43A4D054#32, 0x43AE9D37#32, 0x43B8FF49#32, 0x43C3FF6A#32, 0x43CFA700#32, 0x43DC0000#32, 0x43E914F6#32, 0x43F6F110#32,
   0x4402D013#32, 0x440A9760#32, 0x4412D517#32, 0x441B9041#32, 0x4424D054#32, 0x442E9D37#32, 0x4438FF49#32, 0x4443FF6A#32,
   0x444FA700#32, 0x445C0000#32, 0x446914F6#32, 0x4476F110#32, 0x4482D013#32, 0x448A9760#32, 0x4492D517#32, 0x449B9041#32,
   0x44A4D054#32, 0x44AE9D37#32, 0x44B8FF49#32, 0x44C3FF6A#32, 0x44CFA700#32, 0x44DC0000#32, 0x44E914F6#32, 0x44F6F110#32]

/-- Rows 96 to 120 of the table of R176. -/
def noteRom3 : List F32 :=
  [0x4502D013#32, 0x450A9760#32, 0x4512D517#32, 0x451B9041#32, 0x4524D054#32, 0x452E9D37#32, 0x4538FF49#32, 0x4543FF6A#32,
   0x454FA700#32, 0x455C0000#32, 0x456914F6#32, 0x4576F110#32, 0x4582D013#32, 0x458A9760#32, 0x4592D517#32, 0x459B9041#32,
   0x45A4D054#32, 0x45AE9D37#32, 0x45B8FF49#32, 0x45C3FF6A#32, 0x45CFA700#32, 0x45DC0000#32, 0x45E914F6#32, 0x45F6F110#32,
   0x4602D013#32, 0x460A9760#32, 0x4612D517#32, 0x461B9041#32, 0x4624D054#32, 0x462E9D37#32, 0x4638FF49#32, 0x4643FF6A#32]

/-- NOTE_ROM (R176): 128 entries. -/
def noteTable : List F32 := noteRom0 ++ noteRom1 ++ noteRom2 ++ noteRom3

/-- `LOUD_ROM[v]` (R175). The index has seven bits, so the default is never used. -/
def loudRom (v : BitVec 7) : F32 := loudTable.getD v.toNat ZERO

/-- `NOTE_ROM[n]` (R176). The index has seven bits, so the default is never used. -/
def noteRom (n : BitVec 7) : F32 := noteTable.getD n.toNat ZERO

end Sys2Proof.Machine
end

