-- ==== Sys2Proof/Machine/Ops.lean ====
section
/-! DEFINITION. The operations the meanings share: raising an error and acknowledging it (60_exceptions.md R250, R259), which
are this block's exception entry and return, reset, the voice table and the FIFO, and the sequencing of two operations. -/

namespace Sys2Proof.Machine

/-- What one operation answers. -/
abbrev Result := Host.Outcome State Fault Refusal

/-- One operation after another: the first stop ends the step. -/
def andThen (r : Result) (k : State → Result) : Result :=
  match r with
  | .next s => k s
  | .fault e => .fault e
  | .refused e => .refused e

/-- `raise ERR()` (R250): the sticky bit of STATUS is set; no control is transferred and nothing else changes. -/
def raise (e : Err) (s : State) : State := { s with status := stickySet e s.status }

/-- `raise CFGERR(code, slot)`, a failed START (47_commands.md R222): CFGERR is set and ERRCODE is `{slot, code}`. -/
def startFailed (code slot : BitVec 8) (s : State) : State :=
  { raise .cfgerr s with errcode := (slot ++ code).setWidth 32 }

/-- The acknowledgement of errors (R259): a write of STATUS clears the sticky bits whose data bit is 1, and ERRCODE with
CFGERR. -/
def acknowledge (w : Word) (s : State) : State :=
  { s with status := stickyClear w s.status, errcode := if w.getLsbD 8 then 0#32 else s.errcode }

/-- Every state element takes its reset value (70_reset_and_hazards.md R280); the parameters, N_OSC and the requests still to
come are not affected (R284). -/
def resetAll (level : Bool) (s : State) : State := State.resetWith s.par s.osc.length level s.pending

/-- What a failed check of a KIND code reports as the slot (60_exceptions.md R252, 10_state.md R25). -/
def kindSlot : KindLoc → BitVec 8
  | .slot i => BitVec.ofNat 8 i
  | .vkind => 0xFF#8

/-- `VOICE[n] <- v`. -/
def setVoice (n : BitVec 7) (v : Voice) (s : State) : State := { s with voice := s.voice.set n.toNat v }

/-- `VOICE[n] <- {ACTIVE: 0, LOUD: +0.0}` for every `n` (47_commands.md R223). -/
def clearVoices (s : State) : State := { s with voice := Vector.replicate 128 {} }

/-- `FIFO.clear()`. -/
def clearFifo (s : State) : State := { s with fifo := [] }

/-- `EVQCNT + 1`: an event enters at the tail (20_memory.md R74). -/
def pushTail (e : Event) (s : State) : State := { s with fifo := s.fifo ++ [e] }

/-- The value an operation returns goes on the datapath. -/
def returns (v : F32) (s : State) : State := { s with dp := v }

end Sys2Proof.Machine
end

