-- ==== Sys2Proof/Machine/Filter.lean ====
section
/-! DEFINITION. The single-pole low-pass filter (45_lowpass_filter.md) and the meanings of the four filter rows. -/

namespace Sys2Proof.Machine

/-- The derived coefficient (R190), each operation rounded on its own; not the usual coefficient (R199). -/
def derivedAlpha (cutoff sr : F32) : F32 := fdiv ONE (fadd ONE (fdiv PI32 (fdiv cutoff (fdiv sr TWO))))

/-- The update (R191): `y = ALPHA·x + (1 - ALPHA)·FSTATE`, each operation rounded on its own. -/
def filterOutput (alpha fstate x : F32) : F32 := fadd (fmul alpha x) (fmul (fsub ONE alpha) fstate)

/-- FILTER UPDATE on the value on the datapath: `y` is the new FSTATE and goes on (R191). -/
def filterStep (s : State) : State :=
  returns (filterOutput s.alpha s.fstate s.dp) { s with fstate := filterOutput s.alpha s.fstate s.dp }

/-- ALPHA DERIVATION (R190). -/
def deriveAlpha (s : State) : State := { s with alpha := derivedAlpha s.cutoff (sampleRate s) }

/-! ### Meanings -/

/-- FILTER_BYPASS: the value on the datapath passes unchanged, and FSTATE is neither read nor written (R192). -/
def execFilterBypass (s : State) : Result := .next s

/-- FILTER_UPDATE (R191): the filter input is the value on the datapath, the output of the volume stage. -/
def execFilterUpdate (s : State) : Result := .next (filterStep s)

/-- ALPHA_DIRECT (R194), performed by START with FEN = 1 and ACALC = 0: ALPHA is used as the host wrote it, and START
requires it to be in [0.0, 1.0] and not NaN (BAD_ALPHA, 60_exceptions.md R252). -/
def execAlphaDirect (s : State) : Result :=
  .next (if inUnitPos s.alpha then s else startFailed 0x08#8 0x00#8 s)

/-- ALPHA_DERIVE (R190), performed by a successful START with FEN = 1 and ACALC = 1. -/
def execAlphaDerive (s : State) : Result := .next (deriveAlpha s)

end Sys2Proof.Machine
end

