-- ==== Sys2Proof/Machine/Sine.lean ====
section
/-! DEFINITION. The sine unit SINE_FN of 40_oscillator.md R125: the parameter of the block, given as its departures from the
reference realisation SINE_REF, which is computed here. -/

namespace Sys2Proof.Machine

/-- The number 2π in units of 2^-320, rounded down. -/
def twoPi : Nat :=
  0x6487ed5110b4611a62633145c06e0e68948127044533e63a0105df531d89cd9128a5043cc71a026ef

/-- `k` terms of the series of the sine from the term number `j` on, in units of 2^-320: `term` is the term `j` without its
sign and `sq` the square of the angle. -/
def sineSeries (sq : Nat) : Nat → Nat → Nat → Int
  | 0, _, _ => 0
  | k + 1, j, term =>
    (term : Int) - sineSeries sq k (j + 1) (term * sq / 2 ^ 320 / ((2 * j + 2) * (2 * j + 3)))

/-- sin(2π·y) for `y` units of 2^-149 of a turn, `y` at most a quarter turn, in units of 2^-320. -/
def sineTurn (y : Nat) : Nat :=
  (sineSeries ((twoPi * y / 2 ^ 149) ^ 2 / 2 ^ 320) 40 0 (twoPi * y / 2 ^ 149)).toNat

/-- The distance, in units of 2^-149 of a turn, of the fraction `m` of a turn from the nearest half turn. -/
def sineFold (m : Nat) : Nat :=
  if m / 2 ^ 147 % 2 = 0 then m % 2 ^ 147 else 2 ^ 147 - m % 2 ^ 147

/-- SINE_REF (R125): sin(2π·t) for the exact value of `t`, rounded to nearest-even binary32, an exact zero as `+0.0`. The
series is summed to 2^-300 before the one rounding; DEDUCED, log entry 4. -/
def sineRef (t : F32) : F32 :=
  if isFinite t then
    let m := fUnits t % 2 ^ 149
    let r := min (roundMag (sineTurn (sineFold m)) (2 ^ 171)) 0x3F800000
    if r = 0 then ZERO else packSign (decide (2 ^ 148 ≤ m) != fSign t) r
  else nanOf .sine t t

/-- SINE_FN (R125): SINE_REF but where the realisation's list says otherwise. -/
def sineFn (p : Params) (t : F32) : F32 := (p.sine.lookup t).getD (sineRef t)

/-- The difference of two finite values, in units of 2^-149, without its sign. -/
def unitsApart (a b : F32) : Nat := (fInt a - fInt b).natAbs

/-- Whether SINE_FN meets R125: (a) at `+0.0`, (b) at every entry of the list with `t` in [+0.0, 1 - 2^-24] (SINE_REF meets
it elsewhere), (c) at the three quarter points, to within SINE_TOL. R6 gives SINE_TOL the range `>= 0` without a type: that it
is a finite binary32 with a clear sign bit, so neither `+INF` nor `-0.0`, is the model's choice (DESIGN CHOICE, safe, log
entry 19). -/
def sineLegal (p : Params) : Bool :=
  decide (sineFn p ZERO = ZERO)
    && p.sine.all (fun e => decide (0x3F7FFFFF < e.1.toNat) || inUnit e.2)
    && isFinite p.sineTol && !fSign p.sineTol
    && decide (unitsApart (sineFn p QUARTER) ONE ≤ fUnits p.sineTol)
    && decide (unitsApart (sineFn p HALF) ZERO ≤ fUnits p.sineTol)
    && decide (unitsApart (sineFn p 0x3F400000#32) (fneg ONE) ≤ fUnits p.sineTol)

/-- The legal ranges of the parameters (00_scope.md R6). -/
def paramsLegal (p : Params) : Bool :=
  decide (1 ≤ p.evqDepth) && decide (p.evqDepth ≤ 1023)
    && isFinite p.fmEps && fgt p.fmEps ZERO && sineLegal p && decide (p.base % 4096 = 0)

end Sys2Proof.Machine
end

