-- ==== Sys2Proof/Machine/Oscillator.lean ====
section
/-! DEFINITION. The oscillator (40_oscillator.md): the phase, the six waveform kinds, the one oscillator function (R134), and
the meanings of the KIND rows of the opcode table. -/

namespace Sys2Proof.Machine

/-- The phase `t` (R122). -/
def phase (a : OscArgs) : F32 := fdiv (fmodx a.pos (fdiv a.sr a.f)) (fdiv a.sr a.f)

/-- SILENCE (R126). -/
def waveSilence : F32 := ZERO

/-- SINE (R127). -/
def waveSine (p : Params) (a : OscArgs) : F32 := sineFn p (phase a)

/-- SQUARE (R128). -/
def waveSquare (a : OscArgs) : F32 := if flt (phase a) HALF then ONE else fneg ONE

/-- SAWTOOTH (R129). -/
def waveSawtooth (a : OscArgs) : F32 := fsub ONE (fmul TWO (phase a))

/-- TRIANGLE (R130). -/
def waveTriangle (a : OscArgs) : F32 :=
  if flt (phase a) HALF then fmul FOUR (fsub (phase a) QUARTER)
  else fsub ONE (fmul FOUR (fsub (phase a) HALF))

/-- ONOFF (R131). -/
def waveOnOff (a : OscArgs) : F32 := if flt (phase a) HALF then ONE else ZERO

/-- `osc(kind, pos, sr, f)` (R120). A reserved code never reaches the oscillator (R121): its value is free, log entry 5. -/
def osc (p : Params) (kind : BitVec 3) (a : OscArgs) : F32 :=
  match kind.toNat with
  | 0 => waveSilence
  | 1 => waveSine p a
  | 2 => waveSquare a
  | 3 => waveSawtooth a
  | 4 => waveTriangle a
  | 5 => waveOnOff a
  | _ => Config.reservedKindSample kind a.pos a.sr a.f

/-! ### The meanings of the KIND rows

An evaluation of the oscillator "reads no state, writes no state, sets no flag and raises no error" (R120): its one effect
is the value it returns, on the datapath. -/

/-- SILENCE returns `+0.0` whatever the operands are (R126). -/
def execSilence (_a : OscArgs) (s : State) : Result := .next (returns waveSilence s)

/-- SINE (R127). -/
def execSine (a : OscArgs) (s : State) : Result := .next (returns (waveSine s.par a) s)

/-- SQUARE (R128). -/
def execSquare (a : OscArgs) (s : State) : Result := .next (returns (waveSquare a) s)

/-- SAWTOOTH (R129). -/
def execSawtooth (a : OscArgs) (s : State) : Result := .next (returns (waveSawtooth a) s)

/-- TRIANGLE (R130). -/
def execTriangle (a : OscArgs) (s : State) : Result := .next (returns (waveTriangle a) s)

/-- ONOFF (R131). -/
def execOnoff (a : OscArgs) (s : State) : Result := .next (returns (waveOnOff a) s)

/-- KIND 6 is refused by START with BAD_KIND (60_exceptions.md R252, 30_encoding.md R97). -/
def execKindReserved6 (loc : KindLoc) (s : State) : Result := .next (startFailed 0x04#8 (kindSlot loc) s)

/-- KIND 7 is refused by START with BAD_KIND (R252, R97). -/
def execKindReserved7 (loc : KindLoc) (s : State) : Result := .next (startFailed 0x04#8 (kindSlot loc) s)

end Sys2Proof.Machine
end

