-- ==== Sys2Proof/Machine/Normalizer.lean ====
section
/-! DEFINITION. MIX mode: the period estimator (41_period_estimator.md), the two peak strategies and the divide
(42_amplitude_normalizer.md), and the meanings of PEAK_FAST, PEAK_EXACT and MODE_MIX. -/

namespace Sys2Proof.Machine

/-! ### Period estimator -/

/-- A slot takes part when its KIND is 1 to 5 (R141). -/
def takesPart (o : OscSlot) : Bool := decide (1 ≤ o.kind.toNat) && decide (o.kind.toNat ≤ 5)

/-- The period of one slot in samples (R141): `ceil(SR / FREQ)`, or SRATE when the quotient is infinite. -/
def slotPeriod (s : State) (o : OscSlot) : Nat :=
  if fdiv (sampleRate s) o.freq = INF then s.srate.toNat else (fceil (fdiv (sampleRate s) o.freq)).toNat

/-- One step of the capped fold (R142). -/
def periodStep (s : State) (p : Nat) (o : OscSlot) : Nat :=
  if takesPart o then min (Nat.lcm p (min (slotPeriod s o) s.srate.toNat)) s.srate.toNat else p

/-- `combined_period(OSC, SRATE)` (R140, R142): the slots in ascending order from 1. -/
def combinedPeriod (s : State) : Nat := s.osc.foldl (periodStep s) 1

/-! ### Mix sum and peak -/

/-- The value of a slot at a position. -/
def slotValue (s : State) (pos : F32) (o : OscSlot) : F32 := osc s.par o.kind ⟨pos, sampleRate s, o.freq⟩

/-- `mixsum(pos)` (R152): the slots in ascending order from `+0.0`. -/
def mixSum (s : State) (pos : F32) : F32 := s.osc.foldl (fun acc o => fadd acc (slotValue s pos o)) ZERO

/-- The FAST strategy (R150): the number of slots that take part. -/
def fastPeak (s : State) : F32 := float (s.osc.countP takesPart)

/-- One position of the exact search: the first maximum is kept (R151). -/
def peakStep (s : State) (pk : F32) (k : Nat) : F32 :=
  if fgt (fabs (mixSum s (float k))) pk then fabs (mixSum s (float k)) else pk

/-- The EXACT strategy (R151): the positions 0 to CPERIOD - 1 in ascending order from `+0.0`. -/
def exactPeak (s : State) : F32 := (List.range s.cperiod.toNat).foldl (peakStep s) ZERO

/-- The divide (R153). -/
def normalize (peak v : F32) : F32 := if fgt peak ONE then fdiv v peak else v

/-- The mixed sample of a frame is written to MIXOUT and goes on to the volume stage (46_frame_pipeline.md R203). -/
def mixedSample (m : F32) (s : State) : State := returns m { s with mixout := m }

/-- The sample of a MIX frame (46_frame_pipeline.md R201, R202): pending events are discarded (44_poly_mixer.md R185), the
slots are summed at CLK and the sum is normalised. -/
def mixStage (s : State) : State := mixedSample (normalize s.peak (mixSum s s.clk)) (clearFifo s)

/-! ### Meanings -/

/-- PEAK_FAST (R150), performed by a MIX START with PSTRAT = 0. -/
def execPeakFast (s : State) : Result := .next { s with peak := fastPeak s }

/-- PEAK_EXACT (R151), performed by a MIX START with PSTRAT = 1 after it has written CPERIOD. -/
def execPeakExact (s : State) : Result := .next { s with peak := exactPeak s }

/-- MODE_MIX (R202): the sample of a frame in MIX mode. -/
def execModeMix (s : State) : Result := .next (mixStage s)

end Sys2Proof.Machine
end

