-- ==== Sys2Proof/Machine/Fm.lean ====
section
/-! DEFINITION. The FM composer (43_fm_composer.md) and the meaning of MODE_FM. -/

namespace Sys2Proof.Machine

/-- The carrier, slot 0 (R163). N_OSC is at least 1 (00_scope.md R6). -/
def carrier (s : State) : OscSlot := s.osc.headD {}

/-- The modulators, slots 1 to N_OSC - 1. -/
def modulators (s : State) : List OscSlot := s.osc.tail

/-- The modulator sum (R160): ascending slot order from `+0.0`. -/
def modulatorSum (s : State) (pos : F32) : F32 :=
  (modulators s).foldl (fun acc o => fadd acc (fmul (slotValue s pos o) o.depth)) ZERO

/-- The instantaneous frequency (R161): the carrier's own frequency is added last. -/
def fmFrequency (s : State) : F32 := fadd (carrier s).freq (modulatorSum s s.clk)

/-- The test of the degeneracy clamp (R162). -/
def fmDegenerate (s : State) : Bool :=
  decide ((carrier s).kind ≠ 0#3) && (!fgt (fmFrequency s) ZERO || feq (fmFrequency s) INF)

/-- DEGCNT saturates at 2^32 - 1 (R162). -/
def countUp (n : Word) : Word := if n = 0xFFFFFFFF#32 then 0xFFFFFFFF#32 else n + 1#32

/-- The frequency the carrier is evaluated at: FM_EPS on a degeneracy (R162). -/
def fmClamped (s : State) : F32 := if fmDegenerate s then s.par.fmEps else fmFrequency s

/-- A degeneracy is counted and recorded (R162). -/
def noteDegeneracy (s : State) : State :=
  if fmDegenerate s then { raise .degen s with degcnt := countUp s.degcnt } else s

/-- `fm_sample(CLK)` (R163). -/
def fmSample (s : State) : F32 := osc s.par (carrier s).kind ⟨s.clk, sampleRate s, fmClamped s⟩

/-- The sample of an FM frame (R163, R164): pending events are discarded (44_poly_mixer.md R185), and the sample is not
normalised. -/
def fmStage (s : State) : State := mixedSample (fmSample s) (noteDegeneracy (clearFifo s))

/-- MODE_FM (R163). -/
def execModeFm (s : State) : Result := .next (fmStage s)

end Sys2Proof.Machine
end

