-- ==== Sys2Proof/Machine/Events.lean ====
section
/-! DEFINITION. Events (44_poly_mixer.md): the acceptance of an event word, the two event types, the drain, and the meanings of
NOTE_ON, NOTE_OFF and the reserved types. PUSH is in Machine/Push.lean, after the decoder. -/

namespace Sys2Proof.Machine

/-- NOTE_ON (R178): the entry becomes active and its loudness is replaced; velocity 0 is no exception. -/
def noteOnOp (n v : BitVec 7) (s : State) : State := setVoice n { active := true, loud := loudRom v } s

/-- NOTE_OFF (R179): an absent note is no error and changes nothing. -/
def noteOffOp (n : BitVec 7) (s : State) : State :=
  if (voiceAt s n).active then setVoice n { active := false, loud := ZERO } s else s

/-- One entry of the FIFO is applied (R171). -/
def applyEvent (s : State) (e : Event) : State :=
  match e with
  | .on n v => noteOnOp n v s
  | .off n _ => noteOffOp n s

/-- The drain (R171, R173): every entry, head first, in arrival order, and the FIFO is empty. -/
def drain (s : State) : State := s.fifo.foldl applyEvent (clearFifo s)

/-- Acceptance of an event that has a type (R177): a full FIFO drops it and sets EVQOVF. -/
def enqueue (e : Event) (s : State) : State :=
  if s.fifo.length = s.par.evqDepth then raise .evqovf s else pushTail e s

/-! ### Meanings -/

/-- NOTE_ON, as the drain of a POLY frame applies it (R178). Its acceptance into the FIFO is PUSH (R177). -/
def execNoteOn (n v : BitVec 7) (s : State) : Result := .next (noteOnOp n v s)

/-- NOTE_OFF, as the drain of a POLY frame applies it (R179). -/
def execNoteOff (n _v : BitVec 7) (s : State) : Result := .next (noteOffOp n s)

/-- An event word of TYPE 0 is not enqueued and sets EVTERR (R177, 30_encoding.md R104). -/
def execEvtReservedType0 (s : State) : Result := .next (raise .evterr s)

/-- An event word of TYPE 3 is not enqueued and sets EVTERR (R177, R104). -/
def execEvtReservedType3 (s : State) : Result := .next (raise .evterr s)

end Sys2Proof.Machine
end

