-- ==== Sys2Proof/Machine/Poly.lean ====
section
/-! DEFINITION. The polyphonic mixer's frame sample (44_poly_mixer.md R180 to R183) and the meaning of MODE_POLY. -/

namespace Sys2Proof.Machine

/-- The value of an active voice (R180). -/
def voiceValue (s : State) (n : BitVec 7) : F32 :=
  osc s.par (ctrlVkind s.ctrl) ⟨s.clk, sampleRate s, noteRom n⟩

/-- The notes 0 to 127 in ascending order. -/
def allNotes : List (BitVec 7) := (List.range 128).map (BitVec.ofNat 7)

/-- The active notes in ascending order (R170). -/
def activeNotes (s : State) : List (BitVec 7) := allNotes.filter fun n => (voiceAt s n).active

/-- `acc` (R181): the loudness-weighted sum from `+0.0`. -/
def weightedSum (s : State) : F32 :=
  (activeNotes s).foldl (fun acc n => fadd acc (fmul (voiceAt s n).loud (voiceValue s n))) ZERO

/-- `tot` (R181): the loudness sum from `+0.0`. -/
def loudnessSum (s : State) : F32 := (activeNotes s).foldl (fun tot n => fadd tot (voiceAt s n).loud) ZERO

/-- The frame sample of a voice set (R181): the divide applies when the loudness sum exceeds 1. -/
def polySample (s : State) : F32 :=
  if fgt (loudnessSum s) ONE then fdiv (weightedSum s) (loudnessSum s) else weightedSum s

/-- The sample of the voice set that a drain has left: the empty set gives `+0.0` and resets the clock (R183). -/
def voiceStage (s : State) : State :=
  if nvoice s = 0 then mixedSample ZERO { s with loudsum := ZERO, clk := ZERO }
  else mixedSample (polySample s) { s with loudsum := loudnessSum s }

/-- POLY FRAME SAMPLE (R182): the drain, and only then the sample (R172). -/
def polyStage (s : State) : State := voiceStage (drain s)

/-- MODE_POLY (R182). -/
def execModePoly (s : State) : Result := .next (polyStage s)

end Sys2Proof.Machine
end

