-- ==== Sys2Proof/Machine/Frame.lean ====
section
/-! DEFINITION. The frame (46_frame_pipeline.md): mode dispatch, volume, filter, clamp, clock advance, frame count and output
port, and the meaning of FRAME. -/

namespace Sys2Proof.Machine

/-- Volume (R204): `v = fmul(m, VOLUME)`. -/
def volumeStage (s : State) : State := returns (fmul s.dp s.volume) s

/-- Filter stage (R205): FILTER UPDATE with FEN = 1, nothing with FEN = 0. -/
def filterStage (s : State) : State := if ctrlFen s.ctrl then filterStep s else s

/-- Clamp (R206). -/
def clampUnit (y : F32) : F32 := if fgt y ONE then ONE else if flt y (fneg ONE) then fneg ONE else y

/-- `OUT <- clamp(y)` (R206). -/
def clampStage (s : State) : State := { s with out := clampUnit s.dp }

/-- CLOCK ADVANCE (R208). -/
def advance (clkmod : Word) (clk : F32) : F32 :=
  if clkmod = 0#32 then fadd clk ONE else fmodx (fadd clk ONE) (float clkmod.toNat)

/-- A POLY frame whose voice set is empty after the drain does not advance the clock (R207). -/
def noAdvance (s : State) : Bool := decide (ctrlMode s.ctrl = 2#2) && decide (nvoice s = 0)

/-- The clock advances at the end of the frame (R207). -/
def clockStage (s : State) : State := if noAdvance s then s else { s with clk := advance s.clkmod s.clk }

/-- The frame is counted (R209) and `out_valid` pulses (R213). -/
def countStage (s : State) : State := { s with framecnt := s.framecnt + 1#32, outValid := true }

/-- What follows the mixed sample (R201): volume, filter, clamp, clock advance, frame count. -/
def finishFrame (s : State) : State := countStage (clockStage (clampStage (filterStage (volumeStage s))))

/-- Mode dispatch (R202). There is no frame in mode 3 (R201): log entry 6. -/
def modeStage (s : State) : Result :=
  match (ctrlMode s.ctrl).toNat with
  | 0 => .next (mixStage s)
  | 1 => .next (fmStage s)
  | 2 => .next (polyStage s)
  | _ => .fault .reservedModeFrame

/-- FRAME (R201), one atomic step. -/
def frame (s : State) : Result := andThen (modeStage s) fun t => .next (finishFrame t)

/-- Frame tick (R200): one frame while STATUS.RUN = 1, nothing otherwise. -/
def frameTick (s : State) : Result := if s.status.run then frame s else .next s

/-! ### Meanings -/

/-- FRAME: a pulse on the tick port (R200, R201). -/
def execFrame (s : State) : Result := frameTick s

end Sys2Proof.Machine
end

