-- ==== Sys2Proof/Machine/Commands.lean ====
section
/-! DEFINITION. The commands (47_commands.md), START's validation (60_exceptions.md R252) and the meanings of the CMD rows. -/

namespace Sys2Proof.Machine

/-! ### Validation (R252) -/

/-- The code and the slot of a failing check. -/
structure CheckFailure where
  code : BitVec 8
  slot : BitVec 8
deriving DecidableEq, Repr

/-- A check that names no slot. -/
def plainCheck (code : BitVec 8) (fails : Bool) : Option CheckFailure := if fails then some ⟨code, 0x00#8⟩ else none

/-- A check of the slots: the lowest slot, counted from `base`, that fails. -/
def slotCheck (code : BitVec 8) (base : Nat) (slots : List OscSlot) (fails : OscSlot → Bool) : Option CheckFailure :=
  (slots.findIdx? fails).map fun i => ⟨code, BitVec.ofNat 8 (base + i)⟩

/-- A reserved KIND code (30_encoding.md R97). -/
def reservedKind (k : BitVec 3) : Bool := decide (6 ≤ k.toNat)

/-- Modes MIX and FM read the slots. -/
def readsSlots (s : State) : Bool := decide (ctrlMode s.ctrl = 0#2) || decide (ctrlMode s.ctrl = 1#2)

/-- Check 0x01. -/
def checkMode (s : State) : Option CheckFailure := plainCheck 0x01#8 (decide (ctrlMode s.ctrl = 3#2))

/-- Check 0x02. -/
def checkSrate (s : State) : Option CheckFailure :=
  plainCheck 0x02#8 (decide (s.srate.toNat = 0) || decide (2 ^ 24 < s.srate.toNat))

/-- Check 0x03. -/
def checkClkmod (s : State) : Option CheckFailure := plainCheck 0x03#8 (decide (2 ^ 24 < s.clkmod.toNat))

/-- Check 0x04: the slots in modes MIX and FM, VKIND (slot 0xFF) in mode POLY. -/
def checkKind (s : State) : Option CheckFailure :=
  if readsSlots s then slotCheck 0x04#8 0 s.osc (fun o => reservedKind o.kind)
  else if ctrlMode s.ctrl = 2#2 ∧ reservedKind (ctrlVkind s.ctrl) then some ⟨0x04#8, 0xFF#8⟩
  else none

/-- Check 0x05: a Silence slot's FREQ is never checked. -/
def checkFreq (s : State) : Option CheckFailure :=
  if readsSlots s then slotCheck 0x05#8 0 s.osc (fun o => takesPart o && !isPosFinite o.freq) else none

/-- Check 0x06: the DEPTH of slots 1 to N_OSC - 1 in mode FM, whatever their KIND. -/
def checkDepth (s : State) : Option CheckFailure :=
  if ctrlMode s.ctrl = 1#2 then slotCheck 0x06#8 1 (modulators s) (fun o => !isFinite o.depth) else none

/-- Check 0x07: CUTOFF is finite, above 0 and below half the rate. -/
def checkCutoff (s : State) : Option CheckFailure :=
  plainCheck 0x07#8
    (ctrlFen s.ctrl && ctrlAcalc s.ctrl && !(fgt s.cutoff ZERO && flt s.cutoff (fdiv (sampleRate s) TWO)))

/-- Check 0x08. -/
def checkAlpha (s : State) : Option CheckFailure :=
  plainCheck 0x08#8 (ctrlFen s.ctrl && !ctrlAcalc s.ctrl && !inUnitPos s.alpha)

/-- Check 0x09. -/
def checkVolume (s : State) : Option CheckFailure := plainCheck 0x09#8 (!inUnitPos s.volume)

/-- VALIDATE: the checks in code order; the first that fails is reported. -/
def validate (s : State) : Option CheckFailure :=
  ((((((((checkMode s).or (checkSrate s)).or (checkClkmod s)).or (checkKind s)).or (checkFreq s)).or (checkDepth s)).or
    (checkCutoff s)).or (checkAlpha s)).or (checkVolume s)

/-! ### START (R221 to R223) -/

/-- A new session starts from cleared events, voices, clock, filter state and results (R223). -/
def clearSession (s : State) : State :=
  { clearVoices (clearFifo s) with
    clk := ZERO, fstate := ZERO, mixout := ZERO, out := ZERO, loudsum := ZERO, framecnt := 0#32 }

/-- The filter coefficient is derived when FEN = 1 and ACALC = 1 and otherwise left as it is (R223). -/
def alphaStage (s : State) : State := if ctrlFen s.ctrl && ctrlAcalc s.ctrl then deriveAlpha s else s

/-- PEAK by the strategy of PSTRAT (R223, 30_encoding.md R99). -/
def peakStage (s : State) : State := { s with peak := if ctrlPstrat s.ctrl then exactPeak s else fastPeak s }

/-- CPERIOD and then PEAK in MIX mode; 0 and `+0.0` in the other modes (R223). -/
def constantsStage (s : State) : State :=
  if ctrlMode s.ctrl = 0#2 then peakStage { s with cperiod := BitVec.ofNat 32 (combinedPeriod s) }
  else { s with cperiod := 0#32, peak := ZERO }

/-- `STATUS.RUN <- b`. -/
def setRun (b : Bool) (s : State) : State := { s with status := { s.status with run := b } }

/-- Successful START (R223), in this order. -/
def startSession (s : State) : State := setRun true (constantsStage (alphaStage (clearSession s)))

/-- START (R221). -/
def startOp (s : State) : State :=
  if s.status.run then raise .cmderr s
  else match validate s with
    | some e => startFailed e.code e.slot s
    | none => startSession s

/-! ### Meanings -/

/-- START (R221). -/
def execStart (s : State) : Result := .next (startOp s)

/-- STOP (R224): every other register keeps its value (10_state.md R47). -/
def execStop (s : State) : Result := .next (setRun false s)

/-- TICK (R225): the frame tick of 46_frame_pipeline.md R200. -/
def execTick (s : State) : Result := frameTick s

/-- FLUSH (R226). -/
def execFlush (s : State) : Result := .next (clearFifo s)

/-- CLRCNT (R228). -/
def execClrcnt (s : State) : Result := .next { s with degcnt := 0#32 }

/-- SOFTRESET (R229): exactly as the input `rst` resets. -/
def execSoftreset (s : State) : Result := .next (resetAll s.rst s)

/-- A reserved command word (R227). -/
def execCmdReserved (_w : Word) (s : State) : Result := .next (raise .cmderr s)

/-- MODE 3 is refused by START with BAD_MODE (R252, 30_encoding.md R98). -/
def execModeReserved3 (s : State) : Result := .next (startFailed 0x01#8 0x00#8 s)

end Sys2Proof.Machine
end

