-- ==== Sys2Proof/WellFormed.lean ====
section
/-! DEFINITION. Which operations are well formed: a reserved CMD word is none of the six commands (30_encoding.md R102), a
slot lies in the window (R90), and the operands of the oscillator are in its domain (40_oscillator.md R121). -/

namespace Sys2Proof

open Sys2Proof.Machine (isClock isPosFinite)

/-- A word that is no command (R102). -/
def isReservedCmd (w : Word) : Bool := decide (w.toNat = 0) || decide (6 < w.toNat)

/-- A slot of the window: `i` in 0 to 15 (R90, R91). -/
def KindLoc.wf : KindLoc → Bool
  | .slot i => decide (i < 16)
  | .vkind => true

/-- The domain of the oscillator (R121): the position a non-negative integer at most 2^24, the rate an integer in 1 to 2^24,
the frequency finite and above 0. -/
def OscArgs.wf (a : OscArgs) : Bool :=
  isClock a.pos && isClock a.sr && decide (a.sr ≠ 0#32) && isPosFinite a.f

/-- The checks of an operation. Silence ignores its operands (R126). -/
def Instr.wf : Instr → Bool
  | .cmdReserved w => isReservedCmd w
  | .sine a => a.wf
  | .square a => a.wf
  | .sawtooth a => a.wf
  | .triangle a => a.wf
  | .onoff a => a.wf
  | .kindReserved6 loc => loc.wf
  | .kindReserved7 loc => loc.wf
  | .start | .stop | .tick | .flush | .clrcnt | .softreset | .noteOn _ _ | .noteOff _ _ | .evtReservedType0
  | .evtReservedType3 | .silence _ | .modeMix | .modeFm | .modePoly | .modeReserved3 | .peakFast | .peakExact
  | .filterBypass | .filterUpdate | .alphaDirect | .alphaDerive | .frame | .push _ => true

end Sys2Proof
end

