-- ==== Sys2Proof/Decode.lean ====
section
/-! DEFINITION. Decoding (30_encoding.md R100 to R107) and, after it, encoding. "The format is decided by the address written,
not by the word" (R100): a word is decoded at a site, the place it is read from. -/

namespace Sys2Proof

/-- Where a word is read: the CMD and EVT registers, the event port, the tick port (which has no word), or the register that
holds a selecting code, read when the operation it selects is performed. The oscillator's caller supplies its operands. -/
inductive Site where
  | cmd
  | evt
  | evtPort
  | tickPort
  | kind (loc : KindLoc) (a : OscArgs)
  | mode
  | pstrat
  | filter
  | alpha
deriving DecidableEq, Repr

/-- Why a word has no operation at a site. -/
inductive Reject where
  /-- FEN = 0: START neither derives ALPHA nor checks it (45_lowpass_filter.md R190, R194). -/
  | filterDisabled
  /-- A word is four byte lanes (20_memory.md R63, R64). -/
  | notFourLanes
deriving DecidableEq, Repr

/-! ### Decoder -/

/-- CMD (R101, R102, R220): a word with bits [31:8] not zero is reserved. -/
def decodeCmd (w : Word) : Instr :=
  match w.toNat with
  | 1 => .start
  | 2 => .stop
  | 3 => .tick
  | 4 => .flush
  | 5 => .clrcnt
  | 6 => .softreset
  | _ => .cmdReserved w

/-- EVT (R103, R104): bits 7, 15 and [31:18] are ignored. -/
def decodeEvt (w : Word) : Instr :=
  match (w.extractLsb' 16 2).toNat with
  | 0 => .evtReservedType0
  | 1 => .noteOn (w.extractLsb' 0 7) (w.extractLsb' 8 7)
  | 2 => .noteOff (w.extractLsb' 0 7) (w.extractLsb' 8 7)
  | _ => .evtReservedType3

/-- KIND (R97). -/
def decodeKind (loc : KindLoc) (a : OscArgs) (code : BitVec 3) : Instr :=
  match code.toNat with
  | 0 => .silence a
  | 1 => .sine a
  | 2 => .square a
  | 3 => .sawtooth a
  | 4 => .triangle a
  | 5 => .onoff a
  | 6 => .kindReserved6 loc
  | _ => .kindReserved7 loc

/-- The KIND field of the register that holds it: bits [2:0] of a slot's KIND register (R96), bits [7:5] of CTRL (R92). -/
def kindField (loc : KindLoc) (w : Word) : BitVec 3 :=
  match loc with
  | .slot _ => w.extractLsb' 0 3
  | .vkind => w.extractLsb' 5 3

/-- MODE (R98), bits [1:0] of CTRL. -/
def decodeMode (code : BitVec 2) : Instr :=
  match code.toNat with
  | 0 => .modeMix
  | 1 => .modeFm
  | 2 => .modePoly
  | _ => .modeReserved3

/-- PSTRAT (R99), bit 4 of CTRL. -/
def decodePstrat (b : Bool) : Instr := if b then .peakExact else .peakFast

/-- FEN (R92), bit 2 of CTRL, read by every frame. -/
def decodeFilter (fen : Bool) : Instr := if fen then .filterUpdate else .filterBypass

/-- FEN and ACALC (R92), bits 2 and 3 of CTRL, read by START. -/
def decodeAlpha (fen acalc : Bool) : Except Reject Instr :=
  if fen then (if acalc then .ok .alphaDerive else .ok .alphaDirect) else .error .filterDisabled

/-- The operation a word stands for at a site: total, rejecting by name. -/
def decode (site : Site) (w : Word) : Except Reject Instr :=
  match site with
  | .cmd => .ok (decodeCmd w)
  | .evt => .ok (decodeEvt w)
  | .evtPort => .ok (.push w)
  | .tickPort => .ok .frame
  | .kind loc a => .ok (decodeKind loc a (kindField loc w))
  | .mode => .ok (decodeMode (w.extractLsb' 0 2))
  | .pstrat => .ok (decodePstrat (w.getLsbD 4))
  | .filter => .ok (decodeFilter (w.getLsbD 2))
  | .alpha => decodeAlpha (w.getLsbD 2) (w.getLsbD 3)

/-- The word on four byte lanes: lane `k` carries bits `8k + 7` to `8k` (20_memory.md R63). -/
def wordOfLanes (b0 b1 b2 b3 : Byte) : Word := b3 ++ b2 ++ b1 ++ b0

/-- The byte lanes of a word (R63). -/
def lanesOfWord (w : Word) : List Byte :=
  [w.extractLsb' 0 8, w.extractLsb' 8 8, w.extractLsb' 16 8, w.extractLsb' 24 8]

/-- Decoding of the bytes on the lanes. -/
def decodeLanes (site : Site) (bytes : List Byte) : Except Reject Instr :=
  match bytes with
  | [b0, b1, b2, b3] => decode site (wordOfLanes b0 b1 b2 b3)
  | _ => .error .notFourLanes

/-! ### Encoder -/

/-- An EVT word (R103, R110): `TYPE << 16 | vel << 8 | note`. -/
def evtWord (ty : BitVec 2) (note vel : BitVec 7) : Word :=
  (0#14 ++ ty ++ 0#1 ++ vel ++ 0#1 ++ note : BitVec 32)

/-- A word whose KIND field holds a code. -/
def kindWord (loc : KindLoc) (code : BitVec 3) : Word :=
  match loc with
  | .slot _ => code.setWidth 32
  | .vkind => code.setWidth 32 <<< 5

/-- The site and the word of an operation. The codes a word leaves open are 0. -/
def encode : Instr → Site × Word
  | .start => (.cmd, 0x00000001#32)
  | .stop => (.cmd, 0x00000002#32)
  | .tick => (.cmd, 0x00000003#32)
  | .flush => (.cmd, 0x00000004#32)
  | .clrcnt => (.cmd, 0x00000005#32)
  | .softreset => (.cmd, 0x00000006#32)
  | .cmdReserved w => (.cmd, w)
  | .noteOn n v => (.evt, evtWord 1#2 n v)
  | .noteOff n v => (.evt, evtWord 2#2 n v)
  | .evtReservedType0 => (.evt, evtWord 0#2 0#7 0#7)
  | .evtReservedType3 => (.evt, evtWord 3#2 0#7 0#7)
  | .silence a => (.kind (.slot 0) a, kindWord (.slot 0) 0#3)
  | .sine a => (.kind (.slot 0) a, kindWord (.slot 0) 1#3)
  | .square a => (.kind (.slot 0) a, kindWord (.slot 0) 2#3)
  | .sawtooth a => (.kind (.slot 0) a, kindWord (.slot 0) 3#3)
  | .triangle a => (.kind (.slot 0) a, kindWord (.slot 0) 4#3)
  | .onoff a => (.kind (.slot 0) a, kindWord (.slot 0) 5#3)
  | .kindReserved6 loc => (.kind loc ⟨0#32, 0#32, 0#32⟩, kindWord loc 6#3)
  | .kindReserved7 loc => (.kind loc ⟨0#32, 0#32, 0#32⟩, kindWord loc 7#3)
  | .modeMix => (.mode, 0x00000000#32)
  | .modeFm => (.mode, 0x00000001#32)
  | .modePoly => (.mode, 0x00000002#32)
  | .modeReserved3 => (.mode, 0x00000003#32)
  | .peakFast => (.pstrat, 0x00000000#32)
  | .peakExact => (.pstrat, 0x00000010#32)
  | .filterBypass => (.filter, 0x00000000#32)
  | .filterUpdate => (.filter, 0x00000004#32)
  | .alphaDirect => (.alpha, 0x00000004#32)
  | .alphaDerive => (.alpha, 0x0000000C#32)
  | .frame => (.tickPort, 0x00000000#32)
  | .push w => (.evtPort, w)

/-! ### Words as the opcode table numbers them -/

/-- The operands with which the frame that `withFetchWord` prepares evaluates slot 0: position 0, 48000 samples per second,
440 Hz. -/
def tableArgs : OscArgs := ⟨0x00000000#32, 0x473B8000#32, 0x43DC0000#32⟩

/-- The site of a table word. The table's rows of 32 bits are CMD words, those of 24 bits EVT words, those of 8 bits selecting
codes, and FRAME has no word. Rows of one length that share a word (SILENCE, MODE_MIX, PEAK_FAST and FILTER_BYPASS are all
0) cannot be told apart without the address: the KIND codes are taken, and PSTRAT and ACALC where no KIND code has the
word. Log entry 10. -/
def tableSite (nbits w : Nat) : Option Site :=
  if nbits = 0 then some .tickPort
  else if nbits ≤ 8 then
    (if w < 8 then some (.kind (.slot 0) tableArgs)
     else if w = 0x0C then some .alpha
     else if w = 0x10 then some .pstrat
     else none)
  else if nbits ≤ 24 then some .evt
  else if nbits ≤ 32 then some .cmd
  else none

/-- The instruction the decoder reads from the word `w` of a row of `nbits` bits. -/
def decodeTableWord (nbits w : Nat) : Option Instr :=
  match tableSite nbits w with
  | none => none
  | some site => (decodeLanes site (lanesOfWord (BitVec.ofNat 32 w))).toOption

end Sys2Proof
end

