-- ==== Sys2Proof/Machine/Push.lean ====
section
/-! DEFINITION. PUSH (44_poly_mixer.md R177): an event word is accepted or dropped. -/

namespace Sys2Proof.Machine

/-- The acceptance of an event word (R177): a reserved TYPE is not checked for a full FIFO (60_exceptions.md R255). -/
def pushWord (w : Word) (s : State) : State :=
  match (w.extractLsb' 16 2).toNat with
  | 1 => enqueue (.on (w.extractLsb' 0 7) (w.extractLsb' 8 7)) s
  | 2 => enqueue (.off (w.extractLsb' 0 7) (w.extractLsb' 8 7)) s
  | _ => raise .evterr s

/-- PUSH: a write to EVT or a pulse of `evt_push` (R177, 20_memory.md R60). -/
def execPush (w : Word) (s : State) : Result := .next (pushWord w s)

end Sys2Proof.Machine
end

