-- ==== Sys2Proof/Machine/Dispatch.lean ====
section
/-! DEFINITION. One arm per row of spec/opcode_table.json. -/

namespace Sys2Proof.Machine

def exec (i : Instr) (s : State) : Host.Outcome State Fault Refusal :=
  match i with
  | .start => Sys2Proof.Machine.execStart s
  | .stop => Sys2Proof.Machine.execStop s
  | .tick => Sys2Proof.Machine.execTick s
  | .flush => Sys2Proof.Machine.execFlush s
  | .clrcnt => Sys2Proof.Machine.execClrcnt s
  | .softreset => Sys2Proof.Machine.execSoftreset s
  | .cmdReserved w => Sys2Proof.Machine.execCmdReserved w s
  | .noteOn note vel => Sys2Proof.Machine.execNoteOn note vel s
  | .noteOff note vel => Sys2Proof.Machine.execNoteOff note vel s
  | .evtReservedType0 => Sys2Proof.Machine.execEvtReservedType0 s
  | .evtReservedType3 => Sys2Proof.Machine.execEvtReservedType3 s
  | .silence a => Sys2Proof.Machine.execSilence a s
  | .sine a => Sys2Proof.Machine.execSine a s
  | .square a => Sys2Proof.Machine.execSquare a s
  | .sawtooth a => Sys2Proof.Machine.execSawtooth a s
  | .triangle a => Sys2Proof.Machine.execTriangle a s
  | .onoff a => Sys2Proof.Machine.execOnoff a s
  | .kindReserved6 loc => Sys2Proof.Machine.execKindReserved6 loc s
  | .kindReserved7 loc => Sys2Proof.Machine.execKindReserved7 loc s
  | .modeMix => Sys2Proof.Machine.execModeMix s
  | .modeFm => Sys2Proof.Machine.execModeFm s
  | .modePoly => Sys2Proof.Machine.execModePoly s
  | .modeReserved3 => Sys2Proof.Machine.execModeReserved3 s
  | .peakFast => Sys2Proof.Machine.execPeakFast s
  | .peakExact => Sys2Proof.Machine.execPeakExact s
  | .filterBypass => Sys2Proof.Machine.execFilterBypass s
  | .filterUpdate => Sys2Proof.Machine.execFilterUpdate s
  | .alphaDirect => Sys2Proof.Machine.execAlphaDirect s
  | .alphaDerive => Sys2Proof.Machine.execAlphaDerive s
  | .frame => Sys2Proof.Machine.execFrame s
  | .push w => Sys2Proof.Machine.execPush w s

end Sys2Proof.Machine
end

