-- ==== Sys2Proof/Machine/Bus.lean ====
section
/-! DEFINITION. The register bus (20_memory.md R62 to R68): word reads and writes, the accesses that are refused, requests
while `rst` is asserted (70_reset_and_hazards.md R281), and which requests are operations of the opcode table. -/

namespace Sys2Proof.Machine

/-- The value of a register (R68, R90); CMD and EVT are write-only and read 0 (R65). -/
def readReg (s : State) : Reg → Word
  | .id => idWord
  | .params => paramsWord s
  | .ctrl => s.ctrl.setWidth 32
  | .status => statusWord s
  | .cmd => 0#32
  | .evt => 0#32
  | .srate => s.srate
  | .clkmod => s.clkmod
  | .volume => s.volume
  | .cutoff => s.cutoff
  | .alpha => s.alpha
  | .clk => s.clk
  | .fstate => s.fstate
  | .peak => s.peak
  | .cperiod => s.cperiod
  | .degcnt => s.degcnt
  | .mixout => s.mixout
  | .out => s.out
  | .loudsum => s.loudsum
  | .evqcnt => BitVec.ofNat 32 s.fifo.length
  | .nvoice => BitVec.ofNat 32 (nvoice s)
  | .errcode => s.errcode
  | .framecnt => s.framecnt
  | .oscKind i => (s.osc.getD i {}).kind.setWidth 32
  | .oscFreq i => (s.osc.getD i {}).freq
  | .oscDepth i => (s.osc.getD i {}).depth
  | .vact w => vactWord s w
  | .vloud n => (voiceAt s (BitVec.ofNat 7 n)).loud

/-- A slot with some of its registers written. -/
def setSlot (i : Nat) (f : OscSlot → OscSlot) (s : State) : State := { s with osc := s.osc.modify i f }

/-- A word write to a writable register stores the bits the register has, with no check (R67). The registers that are
read-only or that start an operation (CMD, EVT) store nothing. -/
def storeReg (r : Reg) (w : Word) (s : State) : State :=
  match r with
  | .ctrl => { s with ctrl := w.setWidth 8 }
  | .status => acknowledge w s
  | .srate => { s with srate := w }
  | .clkmod => { s with clkmod := w }
  | .volume => { s with volume := w }
  | .cutoff => { s with cutoff := w }
  | .alpha => { s with alpha := w }
  | .oscKind i => setSlot i (fun o => { o with kind := w.setWidth 3 }) s
  | .oscFreq i => setSlot i (fun o => { o with freq := w }) s
  | .oscDepth i => setSlot i (fun o => { o with depth := w }) s
  | _ => s

/-- A write to a register: dropped with ACCERR where it is read-only (R65), with LOCKERR where it is locked and a session
runs (R66). -/
def writeReg (r : Reg) (w : Word) (s : State) : State :=
  if r.readOnly then raise .accerr s
  else if r.locked && s.status.run then raise .lockerr s
  else storeReg r w s

/-- The port `bus_rdata` drives a value. -/
def drives (v : Word) (s : State) : State := { s with rdata := some v }

/-- A bus read (R64, R65, R68). -/
def busRead (offset : BitVec 12) (size : BitVec 2) (s : State) : State :=
  match regOf s offset size with
  | some r => drives (readReg s r) s
  | none => drives 0#32 (raise .accerr s)

/-- A bus write (R64 to R67), but for the words of CMD and EVT, which are operations. -/
def busWrite (offset : BitVec 12) (size : BitVec 2) (w : Word) (s : State) : State :=
  match regOf s offset size with
  | some r => writeReg r w s
  | none => raise .accerr s

/-- The operation of the opcode table that a request is, if it is one: a word written to CMD (47_commands.md R220) or EVT
(R67), a push (R60) or a tick (46_frame_pipeline.md R200). -/
def requestInstr (i : Input) : Option Instr :=
  match i with
  | .write offset size w =>
    if size = 2#2 ∧ offset = 0x010#12 then some (decodeCmd w)
    else if size = 2#2 ∧ offset = 0x014#12 then some (.push w)
    else none
  | .evtPush w => some (.push w)
  | .tick => some .frame
  | .read _ _ => none
  | .rst _ => none

/-- A request that is a plain register access. -/
def plainAccess (i : Input) (s : State) : State :=
  match i with
  | .read offset size => busRead offset size s
  | .write offset size w => busWrite offset size w s
  | _ => s

/-- A request while `rst` is asserted: no effect, and a read returns 0 (70_reset_and_hazards.md R281). -/
def heldInReset (i : Input) (s : State) : State :=
  match i with
  | .read _ _ => drives 0#32 s
  | _ => s

/-- A change of the level of `rst` (R280, R281): while it is asserted every state element has its reset value. -/
def setRst (level : Bool) (s : State) : State := if level then resetAll true s else { s with rst := false }

/-- The outputs that are pulses or belong to one access return to rest at the next step (R60). -/
def restPorts (s : State) : State := { s with rdata := none, outValid := false }

/-- The oldest request is taken from the order of R72, the others stay. -/
def takeRequest (rest : List Input) (s : State) : State := { restPorts s with pending := rest }

/-! ### Host accesses by address (00_scope.md R12, 20_memory.md R62) -/

/-- The offset of a byte address in the window at BASE, if it lies there. -/
def offsetOf (base addr : Nat) : Option (BitVec 12) :=
  if base ≤ addr ∧ addr < base + 4096 then some (BitVec.ofNat 12 (addr - base)) else none

/-- `MemRead(addr, 4)` (R12). -/
def memRead (base addr : Nat) : Option Input := (offsetOf base addr).map fun o => .read o 2#2

/-- `MemWrite(addr, 4, v)` (R12). -/
def memWrite (base addr : Nat) (v : Word) : Option Input := (offsetOf base addr).map fun o => .write o 2#2 v

end Sys2Proof.Machine
end

