-- ==== Sys2Proof/Machine/Fetch.lean ====
section
/-! DEFINITION. How a table word comes to be the next thing the block runs: the register or the request it stands in. The block
fetches nothing (10_state.md R22); log entry 10. -/

namespace Sys2Proof.Machine

/-- A request placed before the others, with `rst` low. -/
def request (i : Input) (s : State) : State := { s with rst := false, pending := i :: s.pending }

/-- The write of a word to CMD, as the next request. -/
def requestCmd (w : Word) (s : State) : State := request (.write 0x010#12 2#2 w) s

/-- START as the next request, with the block stopped and CTRL holding a word. -/
def requestStart (c : BitVec 8) (s : State) : State :=
  requestCmd 0x00000001#32 { s with status := { s.status with run := false }, ctrl := c }

/-- A tick as the next request, with a session running and CTRL holding a word. -/
def requestFrame (c : BitVec 8) (s : State) : State :=
  request .tick { s with status := { s.status with run := true }, ctrl := c }

/-- Slot 0 holds a KIND code and 440 Hz, at position 0 and 48000 samples per second: the operands `tableArgs`. -/
def placeKind (code : BitVec 3) (s : State) : State :=
  { s with osc := s.osc.set 0 { kind := code, freq := tableArgs.f }, clk := tableArgs.pos, srate := 48000#32 }

/-- The instruction of a site's word is the next to run: a command or a push by its request, a note event by the POLY frame that
drains it, a KIND code by the MIX frame (or, where it is reserved, the START) that reads it in slot 0, PSTRAT and ACALC by
the START that reads CTRL. -/
def placeWord (site : Site) (w : Word) (s : State) : State :=
  match site with
  | .cmd => requestCmd w s
  | .evt =>
    (match decodeEvt w with
     | .noteOn n v => requestFrame 0x02#8 { s with fifo := [.on n v] }
     | .noteOff n v => requestFrame 0x02#8 { s with fifo := [.off n v] }
     | _ => request (.write 0x014#12 2#2 w) s)
  | .evtPort => request (.evtPush w) s
  | .tickPort => requestFrame s.ctrl s
  | .kind loc _ =>
    if (kindField loc w).toNat < 6 then requestFrame 0x00#8 (placeKind (kindField loc w) s)
    else requestStart 0x00#8 (placeKind (kindField loc w) s)
  | .mode => requestFrame (w.setWidth 8 &&& 0x03#8) s
  | .pstrat => requestStart (w.setWidth 8 &&& 0x10#8) s
  | .filter => requestFrame (w.setWidth 8 &&& 0x04#8) s
  | .alpha => requestStart (w.setWidth 8 &&& 0x0C#8) { s with cutoff := 0x447A0000#32 }

end Sys2Proof.Machine
end

