-- ==== Sys2Proof/Machine/Step.lean ====
section
/-! DEFINITION. One step of the block: the oldest pending request, performed as one atomic step (20_memory.md R61, R72). -/

namespace Sys2Proof.Machine

/-- A request, taken from the order, is performed: a change of `rst`, a request held in reset, an operation of the opcode
table, or a plain register access. -/
def perform (i : Input) (s : State) : Host.Outcome State Fault Refusal :=
  match i with
  | .rst level => .next (setRst level s)
  | _ =>
    if s.rst then .next (heldInReset i s)
    else match requestInstr i with
      | some op => exec op s
      | none => .next (plainAccess i s)

/-- The step. With no request pending only the pulses on the output ports end. -/
def step (s : State) : Host.Outcome State Fault Refusal :=
  match s.pending with
  | [] => .next (restPorts s)
  | i :: rest => perform i (takeRequest rest s)

/-- The state in which the next step runs the instruction that the word `w` of a table row of `nbits` bits decodes to. -/
def State.withFetchWord (s : State) (nbits w : Nat) : State :=
  match tableSite nbits w with
  | none => s
  | some site => placeWord site (BitVec.ofNat 32 w) s

end Sys2Proof.Machine
end

