-- ==== Sys2Proof/Safety.lean ====
section
/-! DEFINITION. What a safe run is: the invariant that every step keeps, the step that answers, and the ranges the rules promise
for the values of a frame. -/

namespace Sys2Proof.Machine

/-- The session constants as START leaves them (10_state.md R34, R35, 42_amplitude_normalizer.md R156,
70_reset_and_hazards.md R298): CPERIOD and PEAK of the slots in MIX mode, 0 and `+0.0` in the other modes, and ALPHA where
START derives it. -/
def SessionConstants (s : State) : Prop :=
  (ctrlMode s.ctrl = 0#2 →
      s.cperiod = BitVec.ofNat 32 (combinedPeriod s) ∧
        s.peak = if ctrlPstrat s.ctrl then exactPeak s else fastPeak s) ∧
    (ctrlMode s.ctrl ≠ 0#2 → s.cperiod = 0#32 ∧ s.peak = ZERO) ∧
    (ctrlFen s.ctrl = true → ctrlAcalc s.ctrl = true → s.alpha = derivedAlpha s.cutoff (sampleRate s))

/-- The invariant of the block. -/
structure State.Inv (s : State) : Prop where
  /-- 1 to 16 slots (00_scope.md R6). -/
  slots : 1 ≤ s.osc.length ∧ s.osc.length ≤ 16
  /-- The parameters are in their legal ranges (R6, R284). -/
  params : paramsLegal s.par = true
  /-- The FIFO holds at most EVQ_DEPTH entries (10_state.md R43). -/
  room : s.fifo.length ≤ s.par.evqDepth
  /-- An inactive entry of the voice table has LOUD = `+0.0` (44_poly_mixer.md R170). -/
  idleVoices : ∀ n, (voiceAt s n).active = false → (voiceAt s n).loud = ZERO
  /-- Every LOUD is in [0.0, 1.0] (10_state.md R41). -/
  loudness : ∀ n, inUnitPos (voiceAt s n).loud = true
  /-- A running session has passed every check (47_commands.md R221), and its configuration is locked (10_state.md R49). -/
  validated : s.status.run = true → validate s = none
  /-- A session in a mode other than POLY has no active voice (44_poly_mixer.md R185). -/
  voiceless : s.status.run = true → ctrlMode s.ctrl ≠ 2#2 → ∀ n, (voiceAt s n).active = false
  /-- A POLY session without a voice has its clock at `+0.0` (44_poly_mixer.md R184). -/
  resting : s.status.run = true → ctrlMode s.ctrl = 2#2 → nvoice s = 0 → s.clk = ZERO
  /-- The session constants are those of the configuration. -/
  constants : s.status.run = true → SessionConstants s
  /-- ERRCODE is 0 while CFGERR is (10_state.md R25), and its bits [31:16] are 0. -/
  errcode : (s.status.cfgerr = false → s.errcode = 0#32) ∧ s.errcode.toNat < 2 ^ 16
  /-- While `rst` is asserted every element holds its reset value (70_reset_and_hazards.md R280, R281). -/
  held : s.rst = true → s = { resetAll true s with rdata := s.rdata }

/-- The reserved offsets of a block with `nOsc` slots (30_encoding.md R91). -/
def reservedOffset (nOsc o : Nat) : Prop :=
  (0x05C ≤ o ∧ o ≤ 0x0FC) ∨ (∃ i, i < 16 ∧ o = 0x10C + 16 * i) ∨
    (∃ i, nOsc ≤ i ∧ i ≤ 15 ∧ 0x100 + 16 * i ≤ o ∧ o ≤ 0x10C + 16 * i) ∨ (0x210 ≤ o ∧ o ≤ 0x3FC) ∨
    (0x600 ≤ o ∧ o ≤ 0xFFC)

/-- The step answers a next state. -/
def State.answers (s : State) : Prop := ∃ t, step s = .next t

/-- CLK is a non-negative integer at most 2^24, never -0.0 (10_state.md R31). -/
def State.clockOk (s : State) : Prop := isClock s.clk = true

/-- OUT is a number in [-1.0, 1.0] (10_state.md R38). -/
def State.outOk (s : State) : Prop := inUnit s.out = true

end Sys2Proof.Machine
end

