-- ==== Sys2Proof/Certificates/Slice0/Obligations.lean ====
section
/-! DEFINITION. The statements for the provers. A request is performed by `perform`, an operation of the opcode table by `exec`;
a record `with` update names all that changes, so every statement of that form is the result, the completion and the frame of
the operation. -/

open Sys2Proof Sys2Proof.Machine

/-! ### Encoding -/

/-- Every well-formed operation is read back from the byte lanes of its word (30_encoding.md R100 to R104, 20_memory.md
R63). -/
def Obligations.DecodeEncodeRoundTrip : Prop :=
  ∀ i : Instr, i.wf = true → decodeLanes (encode i).1 (lanesOfWord (encode i).2) = .ok i

/-- Decoding is total and each word is exactly one operation (30_encoding.md R107, R102, R97). -/
def Obligations.DecodingIsTotal : Prop :=
  ∀ (w : Word) (loc : KindLoc) (a : OscArgs),
    (decodeCmd w = .start ↔ w = 0x00000001#32) ∧ (decodeCmd w = .stop ↔ w = 0x00000002#32) ∧
    (decodeCmd w = .tick ↔ w = 0x00000003#32) ∧ (decodeCmd w = .flush ↔ w = 0x00000004#32) ∧
    (decodeCmd w = .clrcnt ↔ w = 0x00000005#32) ∧ (decodeCmd w = .softreset ↔ w = 0x00000006#32) ∧
    (decodeCmd w = .cmdReserved w ↔
      w.extractLsb' 8 24 ≠ 0#24 ∨ w.extractLsb' 0 8 = 0x00#8 ∨ 0x07#8 ≤ w.extractLsb' 0 8) ∧
    (decodeEvt w = .noteOn (w.extractLsb' 0 7) (w.extractLsb' 8 7) ↔ w.extractLsb' 16 2 = 1#2) ∧
    (decodeEvt w = .noteOff (w.extractLsb' 0 7) (w.extractLsb' 8 7) ↔ w.extractLsb' 16 2 = 2#2) ∧
    (decodeEvt w = .evtReservedType0 ↔ w.extractLsb' 16 2 = 0#2) ∧
    (decodeEvt w = .evtReservedType3 ↔ w.extractLsb' 16 2 = 3#2) ∧
    decodeKind loc a 0#3 = .silence a ∧ decodeKind loc a 1#3 = .sine a ∧ decodeKind loc a 2#3 = .square a ∧
    decodeKind loc a 3#3 = .sawtooth a ∧ decodeKind loc a 4#3 = .triangle a ∧ decodeKind loc a 5#3 = .onoff a ∧
    decodeKind loc a 6#3 = .kindReserved6 loc ∧ decodeKind loc a 7#3 = .kindReserved7 loc

/-- Words written out from the tables of 30_encoding.md R92, R97, R102 and R103. -/
def Obligations.WordsDecodeAsTabled : Prop :=
  decodeLanes .cmd [0x01#8, 0x00#8, 0x00#8, 0x00#8] = .ok .start ∧
  decodeLanes .cmd [0x01#8, 0x01#8, 0x00#8, 0x00#8] = .ok (.cmdReserved 0x00000101#32) ∧
  decodeLanes .evt [0x3C#8, 0x7F#8, 0x01#8, 0x00#8] = .ok (.noteOn 60#7 127#7) ∧
  decodeLanes .evt [0xBC#8, 0x80#8, 0xFE#8, 0xFF#8] = .ok (.noteOff 60#7 0#7) ∧
  decodeLanes (.kind (.slot 2) tableArgs) [0x03#8, 0x00#8, 0x00#8, 0x00#8] = .ok (.sawtooth tableArgs) ∧
  decodeLanes (.kind .vkind tableArgs) [0x82#8, 0x00#8, 0x00#8, 0x00#8] = .ok (.triangle tableArgs) ∧
  decodeLanes .mode [0x82#8, 0x00#8, 0x00#8, 0x00#8] = .ok .modePoly ∧
  decodeLanes .pstrat [0x10#8, 0x00#8, 0x00#8, 0x00#8] = .ok .peakExact ∧
  decodeLanes .alpha [0x0C#8, 0x00#8, 0x00#8, 0x00#8] = .ok .alphaDerive

/-- "Bits marked ignored (EVT [7], [15], [31:18]; CTRL [31:8]; `OSC[i].KIND` [31:3]) have no effect" (30_encoding.md R106),
and STATUS takes bits [14:8] of a write alone (20_memory.md R67). -/
def Obligations.IgnoredBitsHaveNoEffect : Prop :=
  ∀ (s : State) (w : Word) (i : Nat),
    exec (.push w) s = exec (.push (w &&& 0x00037F7F#32)) s ∧
    storeReg .ctrl w s = storeReg .ctrl (w &&& 0x000000FF#32) s ∧
    storeReg (.oscKind i) w s = storeReg (.oscKind i) (w &&& 0x00000007#32) s ∧
    storeReg .status w s = storeReg .status (w &&& 0x00007F00#32) s

/-! ### The register window -/

/-- The map of 30_encoding.md R90: each register stands at its offset and no other register does. -/
def Obligations.RegisterMapIsOneToOne : Prop :=
  ∀ nOsc : Nat, nOsc ≤ 16 →
    (∀ r : Reg, r.inMap nOsc = true → r.offset.toNat % 4 = 0 ∧ regAtWord nOsc (r.offset.toNat / 4) = some r) ∧
    (∀ (k : Nat) (r : Reg), k < 1024 → regAtWord nOsc k = some r → r.inMap nOsc = true ∧ r.offset.toNat = 4 * k)

/-- Reserved offsets, read-only and write-only registers (20_memory.md R65, 30_encoding.md R91). -/
def Obligations.ReservedAndReadOnlyAccesses : Prop :=
  ∀ (s : State) (o : BitVec 12) (r : Reg) (w : Word),
    s.rst = false → 1 ≤ s.osc.length → s.osc.length ≤ 16 → o.toNat % 4 = 0 → r.inMap s.osc.length = true →
    (regOf s o 2#2 = none ↔ reservedOffset s.osc.length o.toNat) ∧
    (reservedOffset s.osc.length o.toNat →
      perform (.read o 2#2) s = .next { s with rdata := some 0#32, status := { s.status with accerr := true } } ∧
      perform (.write o 2#2 w) s = .next { s with status := { s.status with accerr := true } }) ∧
    (((∃ n, r = .vact n ∨ r = .vloud n) ∨
        r ∈ [.id, .params, .errcode, .clk, .fstate, .peak, .cperiod, .degcnt, .mixout, .out, .loudsum, .evqcnt, .nvoice,
          .framecnt]) →
      perform (.write r.offset 2#2 w) s = .next { s with status := { s.status with accerr := true } }) ∧
    perform (.read 0x010#12 2#2) s = .next { s with rdata := some 0#32 } ∧
    perform (.read 0x014#12 2#2) s = .next { s with rdata := some 0#32 }

/-- Only an aligned word access is defined (20_memory.md R64). -/
def Obligations.SubWordAndMisalignedAccesses : Prop :=
  ∀ (s : State) (o : BitVec 12) (z : BitVec 2) (w : Word), s.rst = false → (z ≠ 2#2 ∨ o.extractLsb' 0 2 ≠ 0#2) →
    perform (.read o z) s = .next { s with rdata := some 0#32, status := { s.status with accerr := true } } ∧
    perform (.write o z w) s = .next { s with status := { s.status with accerr := true } }

/-- Locked writes (20_memory.md R66, 10_state.md R49): dropped with LOCKERR while a session runs, stored while stopped. -/
def Obligations.LockedWrites : Prop :=
  ∀ (s : State) (r : Reg) (w : Word), s.rst = false → s.osc.length ≤ 16 → r.inMap s.osc.length = true →
    ((∃ i, r = .oscKind i ∨ r = .oscFreq i ∨ r = .oscDepth i) ∨
      r ∈ [.ctrl, .srate, .clkmod, .volume, .cutoff, .alpha]) →
    (s.status.run = true →
      perform (.write r.offset 2#2 w) s = .next { s with status := { s.status with lockerr := true } }) ∧
    (s.status.run = false → perform (.write r.offset 2#2 w) s = .next (storeReg r w s))

/-- What a word write stores (20_memory.md R67). -/
def Obligations.WordWritesStore : Prop :=
  ∀ (s : State) (w : Word) (i : Nat), s.rst = false → s.osc.length ≤ 16 → i < s.osc.length →
    (s.status.run = false →
      perform (.write 0x008#12 2#2 w) s = .next { s with ctrl := w.extractLsb' 0 8 } ∧
      perform (.write 0x018#12 2#2 w) s = .next { s with srate := w } ∧
      perform (.write 0x01C#12 2#2 w) s = .next { s with clkmod := w } ∧
      perform (.write 0x020#12 2#2 w) s = .next { s with volume := w } ∧
      perform (.write 0x024#12 2#2 w) s = .next { s with cutoff := w } ∧
      perform (.write 0x028#12 2#2 w) s = .next { s with alpha := w } ∧
      perform (.write (BitVec.ofNat 12 (0x100 + 16 * i)) 2#2 w) s =
        .next { s with osc := s.osc.modify i fun o => { o with kind := w.extractLsb' 0 3 } } ∧
      perform (.write (BitVec.ofNat 12 (0x104 + 16 * i)) 2#2 w) s =
        .next { s with osc := s.osc.modify i fun o => { o with freq := w } } ∧
      perform (.write (BitVec.ofNat 12 (0x108 + 16 * i)) 2#2 w) s =
        .next { s with osc := s.osc.modify i fun o => { o with depth := w } }) ∧
    perform (.write 0x00C#12 2#2 w) s =
      .next
        { s with
          status :=
            { s.status with
              cfgerr := s.status.cfgerr && !w.getLsbD 8, lockerr := s.status.lockerr && !w.getLsbD 9
              evqovf := s.status.evqovf && !w.getLsbD 10, evterr := s.status.evterr && !w.getLsbD 11
              cmderr := s.status.cmderr && !w.getLsbD 12, accerr := s.status.accerr && !w.getLsbD 13
              degen := s.status.degen && !w.getLsbD 14 }
          errcode := if w.getLsbD 8 then 0#32 else s.errcode } ∧
    perform (.write 0x010#12 2#2 w) s = exec (decodeCmd w) s ∧
    perform (.write 0x014#12 2#2 w) s = exec (.push w) s

/-- A word read returns the register and has no side effect (20_memory.md R68; the port `bus_rdata` is the model's field
`rdata`, log entry 8). Every plain register reads its own current value, zero-extended where it is narrower than the word. The
registers that are views of other state read what their rules say: ID and PARAMS (10_state.md R44), STATUS (30_encoding.md
R93), EVQCNT (10_state.md R43), NVOICE (R42), VACT and VLOUD (30_encoding.md R95). -/
def Obligations.WordReads : Prop :=
  ∀ s : State, s.rst = false → s.osc.length ≤ 16 → s.par.evqDepth ≤ 1023 →
    (∀ r : Reg, r.inMap s.osc.length = true →
      perform (.read r.offset 2#2) s = .next { s with rdata := some (readReg s r) }) ∧
    readReg s .ctrl = (0x000000#24 ++ s.ctrl : BitVec 32) ∧ readReg s .srate = s.srate ∧ readReg s .clkmod = s.clkmod ∧
    readReg s .volume = s.volume ∧ readReg s .cutoff = s.cutoff ∧ readReg s .alpha = s.alpha ∧ readReg s .clk = s.clk ∧
    readReg s .fstate = s.fstate ∧ readReg s .peak = s.peak ∧ readReg s .cperiod = s.cperiod ∧
    readReg s .degcnt = s.degcnt ∧ readReg s .mixout = s.mixout ∧ readReg s .out = s.out ∧
    readReg s .loudsum = s.loudsum ∧ readReg s .errcode = s.errcode ∧ readReg s .framecnt = s.framecnt ∧
    (∀ (i : Nat) (o : OscSlot), s.osc[i]? = some o →
      (readReg s (.oscKind i)).toNat = o.kind.toNat ∧ readReg s (.oscFreq i) = o.freq ∧
        readReg s (.oscDepth i) = o.depth) ∧
    readReg s .cmd = 0#32 ∧ readReg s .evt = 0#32 ∧
    readReg s .status = statusWord s ∧ readReg s .id = 0x53540001#32 ∧
    (readReg s .params).toNat = s.par.evqDepth * 256 + s.osc.length ∧
    (∀ i : Nat, i < 32 →
      (readReg s .status).getLsbD i =
        match i with
        | 0 => s.status.run
        | 1 => decide (s.fifo = [])
        | 2 => decide (s.fifo.length = s.par.evqDepth)
        | 8 => s.status.cfgerr
        | 9 => s.status.lockerr
        | 10 => s.status.evqovf
        | 11 => s.status.evterr
        | 12 => s.status.cmderr
        | 13 => s.status.accerr
        | 14 => s.status.degen
        | _ => false) ∧
    readReg s .evqcnt = BitVec.ofNat 32 s.fifo.length ∧
    (readReg s .nvoice).toNat = ((List.range 128).filter fun n => (voiceAt s (BitVec.ofNat 7 n)).active).length ∧
    (∀ w b : Nat, w < 4 → b < 32 →
      (readReg s (.vact w)).getLsbD b = (voiceAt s (BitVec.ofNat 7 (32 * w + b))).active) ∧
    (∀ n : Nat, n < 128 → readReg s (.vloud n) = (voiceAt s (BitVec.ofNat 7 n)).loud)

/-- A write to a configuration register is read back, and no other register of the window changes (20_memory.md R72, R67). -/
def Obligations.ConfigurationWriteIsReadBack : Prop :=
  ∀ (s : State) (r r' : Reg) (w : Word), s.rst = false → s.status.run = false → s.osc.length ≤ 16 →
    r.inMap s.osc.length = true → r'.inMap s.osc.length = true → r.locked = true →
    ∃ t, perform (.write r.offset 2#2 w) s = .next t ∧
      readReg t r = (match r with
        | .ctrl => w &&& 0x000000FF#32
        | .oscKind _ => w &&& 0x00000007#32
        | _ => w) ∧
      (r' ≠ r → readReg t r' = readReg s r')

/-! ### Steps and reset -/

/-- A step performs the oldest request (20_memory.md R61, R72): a word on CMD, EVT or the event port, or a tick, runs the
operation its lanes decode to, in the state with the request taken; any other request is the plain access. Three clauses
are the model's choice: the order of requests is a list and with an empty list only the pulses end (log entry 2, DESIGN
CHOICE), and `rdata` and `outValid` go to rest at the next step (log entry 8, DESIGN CHOICE). -/
def Obligations.StepRunsDecodedRequest : Prop :=
  ∀ (s : State) (rest : List Input), s.rst = false →
    let u := { s with rdata := none, outValid := false, pending := rest }
    (s.pending = [] → step s = .next { s with rdata := none, outValid := false }) ∧
    (∀ w op, s.pending = .write 0x010#12 2#2 w :: rest → decodeLanes .cmd (lanesOfWord w) = .ok op →
      step s = exec op u) ∧
    (∀ w op, s.pending = .write 0x014#12 2#2 w :: rest → decodeLanes .evtPort (lanesOfWord w) = .ok op →
      step s = exec op u) ∧
    (∀ w op, s.pending = .evtPush w :: rest → decodeLanes .evtPort (lanesOfWord w) = .ok op → step s = exec op u) ∧
    (∀ w op, s.pending = .tick :: rest → decodeLanes .tickPort (lanesOfWord w) = .ok op → step s = exec op u) ∧
    (∀ o z, s.pending = .read o z :: rest → step s = .next (busRead o z u)) ∧
    (∀ o z w, s.pending = .write o z w :: rest → (z = 2#2 → o ≠ 0x010#12 ∧ o ≠ 0x014#12) →
      step s = .next (busWrite o z w u))

/-- The input `rst` (70_reset_and_hazards.md R281): its assertion is one step that gives the table of R280, and while it is
asserted the requests have no effect and a read returns 0. What it says beyond R281 is the model's: the release changes the
line alone and a request under `rst` is taken from the order and dropped (log entry 9, DEDUCED), `rdata` and `outValid` go to
rest at the step (log entry 8, DESIGN CHOICE), and the wire `dp` is 0 after reset (log entry 7, DESIGN CHOICE). -/
def Obligations.ResetLineHolds : Prop :=
  ∀ (s : State) (i : Input) (rest : List Input), s.pending = i :: rest →
    (i = .rst true → step s = .next (State.resetWith s.par s.osc.length true rest)) ∧
    (s.rst = true → (∀ l, i ≠ .rst l) →
      step s =
        .next
          { s with
            pending := rest, outValid := false
            rdata := match i with | .read _ _ => some 0#32 | _ => none }) ∧
    (i = .rst false → step s = .next { s with pending := rest, rst := false, outValid := false, rdata := none })

/-- SOFTRESET gives every element the value of the table of 70_reset_and_hazards.md R280 (47_commands.md R229); ID and PARAMS
are not affected. -/
def Obligations.SoftresetGivesTheTable : Prop :=
  ∀ s : State, ∃ t, exec .softreset s = .next t ∧
    t.ctrl = 0x00#8 ∧ t.status = ⟨false, false, false, false, false, false, false, false⟩ ∧ t.errcode = 0x00000000#32 ∧
    t.srate = 0x0000BB80#32 ∧ t.clkmod = 0#32 ∧ t.volume = 0x3F800000#32 ∧ t.cutoff = 0x00000000#32 ∧
    t.clk = 0x00000000#32 ∧ t.alpha = 0x3F800000#32 ∧ t.fstate = 0x00000000#32 ∧ t.peak = 0x00000000#32 ∧
    t.cperiod = 0#32 ∧ t.degcnt = 0#32 ∧ t.mixout = 0x00000000#32 ∧ t.out = 0x00000000#32 ∧ t.outValid = false ∧
    t.loudsum = 0x00000000#32 ∧ t.osc = List.replicate s.osc.length ⟨0#3, 0x00000000#32, 0x00000000#32⟩ ∧
    t.voice = Vector.replicate 128 ⟨false, 0x00000000#32⟩ ∧ t.fifo = [] ∧ t.framecnt = 0#32 ∧
    (1 ≤ s.par.evqDepth → statusWord t = 0x00000002#32) ∧
    readReg t .id = readReg s .id ∧ readReg t .params = readReg s .params

/-- After reset the block is stopped and its configuration is legal (70_reset_and_hazards.md R282): START succeeds in MIX mode
with every slot Silence, CPERIOD = 1 and PEAK = `+0.0`, and every frame of that session gives MIXOUT = OUT = `+0.0` while CLK
counts. -/
def Obligations.ResetConfigurationStarts : Prop :=
  ∀ (p : Params) (nOsc : Nat),
    (exec .frame (State.resetWith p nOsc false []) = .next (State.resetWith p nOsc false [])) ∧
    (∃ t, exec .start (State.resetWith p nOsc false []) = .next t ∧ t.status.run = true ∧
      t.cperiod = 1#32 ∧ t.peak = ZERO ∧ t.clk = float 0) ∧
    (∀ (s : State) (k : Nat), s.status.run = true → s.ctrl = 0x00#8 → (∀ o ∈ s.osc, o.kind = 0#3) →
      s.volume = 0x3F800000#32 → s.clkmod = 0#32 → s.peak = ZERO → s.clk = float k → k < 2 ^ 24 →
      ∃ t, exec .frame s = .next t ∧ t.mixout = ZERO ∧ t.out = ZERO ∧ t.clk = float (k + 1))

/-! ### Commands -/

/-- START while a session runs, and a failed START (47_commands.md R221, R222). -/
def Obligations.StartRefusals : Prop :=
  ∀ (s : State) (code slot : BitVec 8),
    (s.status.run = true → exec .start s = .next { s with status := { s.status with cmderr := true } }) ∧
    (s.status.run = false → validate s = some ⟨code, slot⟩ →
      exec .start s =
        .next
          { s with
            status := { s.status with cfgerr := true }
            errcode := (0x0000#16 ++ slot ++ code : BitVec 32) })

/-- The successful START (47_commands.md R223). The exact search reads the CPERIOD just computed. -/
def Obligations.SuccessfulStart : Prop :=
  ∀ s : State, s.status.run = false → validate s = none →
    exec .start s =
      .next
        { s with
          fifo := [], voice := Vector.replicate 128 ⟨false, 0x00000000#32⟩
          clk := 0x00000000#32, fstate := 0x00000000#32, mixout := 0x00000000#32, out := 0x00000000#32
          loudsum := 0x00000000#32, framecnt := 0#32
          alpha :=
            if ctrlFen s.ctrl = true ∧ ctrlAcalc s.ctrl = true then
              fdiv ONE (fadd ONE (fdiv PI32 (fdiv s.cutoff (fdiv (float s.srate.toNat) TWO))))
            else s.alpha
          cperiod := if ctrlMode s.ctrl = 0#2 then BitVec.ofNat 32 (combinedPeriod s) else 0#32
          peak :=
            if ctrlMode s.ctrl = 0#2 then
              (if ctrlPstrat s.ctrl then exactPeak { s with cperiod := BitVec.ofNat 32 (combinedPeriod s) } else fastPeak s)
            else 0x00000000#32
          status := { s.status with run := true } }

/-- A successful MIX START performs the operations that FEN, ACALC and PSTRAT select (30_encoding.md R92, R99). -/
def Obligations.StartRunsSelectedOperations : Prop :=
  ∀ s : State, s.status.run = false → validate s = none → ctrlMode s.ctrl = 0#2 →
    ∃ a u, (match decodeAlpha (ctrlFen s.ctrl) (ctrlAcalc s.ctrl) with
        | .ok op => exec op (clearSession s) = .next a
        | .error _ => a = clearSession s) ∧
      exec (decodePstrat (ctrlPstrat s.ctrl)) { a with cperiod := BitVec.ofNat 32 (combinedPeriod s) } = .next u ∧
      exec .start s = .next { u with status := { u.status with run := true } }

/-- VALIDATE reports the first check of the table of 60_exceptions.md R252 that fails, with the lowest failing slot. -/
def Obligations.ValidationReportsFirstFailure : Prop :=
  ∀ (s : State) (code slot : BitVec 8),
    let readsSlots := ctrlMode s.ctrl = 0#2 ∨ ctrlMode s.ctrl = 1#2
    let badMode := ctrlMode s.ctrl = 3#2
    let badSrate := s.srate = 0#32 ∨ 2 ^ 24 < s.srate.toNat
    let badClkmod := 2 ^ 24 < s.clkmod.toNat
    let badKind := fun i : Nat => readsSlots ∧ ∃ o, s.osc[i]? = some o ∧ (o.kind = 6#3 ∨ o.kind = 7#3)
    let badVkind := ctrlMode s.ctrl = 2#2 ∧ (ctrlVkind s.ctrl = 6#3 ∨ ctrlVkind s.ctrl = 7#3)
    let badFreq := fun i : Nat => readsSlots ∧ ∃ o, s.osc[i]? = some o ∧ o.kind ∈ [1#3, 2#3, 3#3, 4#3, 5#3] ∧
      ¬(fgt o.freq ZERO = true ∧ feq o.freq INF = false)
    let badDepth := fun i : Nat => ctrlMode s.ctrl = 1#2 ∧ 1 ≤ i ∧ ∃ o, s.osc[i]? = some o ∧ isFinite o.depth = false
    let badCutoff := ctrlFen s.ctrl = true ∧ ctrlAcalc s.ctrl = true ∧
      ¬(fgt s.cutoff ZERO = true ∧ flt s.cutoff (fdiv (float s.srate.toNat) TWO) = true)
    let badAlpha := ctrlFen s.ctrl = true ∧ ctrlAcalc s.ctrl = false ∧
      ¬(fge s.alpha ZERO = true ∧ fle s.alpha ONE = true)
    let badVolume := ¬(fge s.volume ZERO = true ∧ fle s.volume ONE = true)
    let lowest := fun bad : Nat → Prop => ∃ i, slot = BitVec.ofNat 8 i ∧ bad i ∧ ∀ j, j < i → ¬bad j
    let none4 := ¬badMode ∧ ¬badSrate ∧ ¬badClkmod
    let none5 := none4 ∧ (∀ i, ¬badKind i) ∧ ¬badVkind
    let none6 := none5 ∧ ∀ i, ¬badFreq i
    let none7 := none6 ∧ ∀ i, ¬badDepth i
    (validate s = none ↔ none7 ∧ ¬badCutoff ∧ ¬badAlpha ∧ ¬badVolume) ∧
    (validate s = some ⟨code, slot⟩ ↔
      (code = 0x01#8 ∧ slot = 0x00#8 ∧ badMode) ∨
      (code = 0x02#8 ∧ slot = 0x00#8 ∧ ¬badMode ∧ badSrate) ∨
      (code = 0x03#8 ∧ slot = 0x00#8 ∧ ¬badMode ∧ ¬badSrate ∧ badClkmod) ∨
      (code = 0x04#8 ∧ none4 ∧ (lowest badKind ∨ (slot = 0xFF#8 ∧ badVkind))) ∨
      (code = 0x05#8 ∧ none5 ∧ lowest badFreq) ∨
      (code = 0x06#8 ∧ none6 ∧ lowest badDepth) ∨
      (code = 0x07#8 ∧ slot = 0x00#8 ∧ none7 ∧ badCutoff) ∨
      (code = 0x08#8 ∧ slot = 0x00#8 ∧ none7 ∧ ¬badCutoff ∧ badAlpha) ∨
      (code = 0x09#8 ∧ slot = 0x00#8 ∧ none7 ∧ ¬badCutoff ∧ ¬badAlpha ∧ badVolume))

/-- The reserved KIND and MODE codes: the operation of their rows is START's refusal (60_exceptions.md R252, 30_encoding.md
R97, R98). That the rows stand for it is the model's choice (log entry 11). -/
def Obligations.ReservedCodesAreRefused : Prop :=
  ∀ (s : State) (i : Nat), i < 16 →
    exec (.kindReserved6 (.slot i)) s =
      .next { s with status := { s.status with cfgerr := true }, errcode := BitVec.ofNat 32 (i * 256 + 4) } ∧
    exec (.kindReserved6 .vkind) s =
      .next { s with status := { s.status with cfgerr := true }, errcode := 0x0000FF04#32 } ∧
    exec (.kindReserved7 (.slot i)) s = exec (.kindReserved6 (.slot i)) s ∧
    exec (.kindReserved7 .vkind) s = exec (.kindReserved6 .vkind) s ∧
    exec .modeReserved3 s =
      .next { s with status := { s.status with cfgerr := true }, errcode := 0x00000001#32 } ∧
    (s.status.run = false → validate s = some ⟨0x04#8, BitVec.ofNat 8 i⟩ →
      exec .start s = exec (.kindReserved6 (.slot i)) s) ∧
    (s.status.run = false → validate s = some ⟨0x04#8, 0xFF#8⟩ → exec .start s = exec (.kindReserved6 .vkind) s) ∧
    (s.status.run = false → ctrlMode s.ctrl = 3#2 → exec .start s = exec .modeReserved3 s)

/-- STOP, FLUSH, CLRCNT and a reserved command word (47_commands.md R224, R226, R228, R227): each writes what its rule names
and nothing else changes. -/
def Obligations.PlainCommands : Prop :=
  ∀ (s : State) (w : Word),
    exec .stop s = .next { s with status := { s.status with run := false } } ∧
    exec .flush s = .next { s with fifo := [] } ∧
    (1 ≤ s.par.evqDepth → evqe { s with fifo := [] } = true ∧ evqf { s with fifo := [] } = false) ∧
    exec .clrcnt s = .next { s with degcnt := 0#32 } ∧
    exec (.cmdReserved w) s = .next { s with status := { s.status with cmderr := true } } ∧
    ((w.extractLsb' 8 24 ≠ 0#24 ∨ w.extractLsb' 0 8 = 0x00#8 ∨ 0x07#8 ≤ w.extractLsb' 0 8) →
      decodeCmd w = .cmdReserved w)

/-! ### Frames -/

/-- The samples of the three modes (43_fm_composer.md R160 to R163, 44_poly_mixer.md R181 to R183, R185,
42_amplitude_normalizer.md R152, R153). The sample also goes on the datapath, the model's wire `dp` (log entry 7). -/
def Obligations.ModeSamples : Prop :=
  ∀ s : State,
    let m := s.osc.foldl (fun acc o => fadd acc (osc s.par o.kind ⟨s.clk, float s.srate.toNat, o.freq⟩)) 0x00000000#32
    let acc := s.osc.tail.foldl
      (fun acc o => fadd acc (fmul (osc s.par o.kind ⟨s.clk, float s.srate.toNat, o.freq⟩) o.depth)) 0x00000000#32
    let c := s.osc.headD ⟨0#3, 0x00000000#32, 0x00000000#32⟩
    let f := fadd c.freq acc
    let degenerate := c.kind ≠ 0#3 ∧ (fgt f ZERO = false ∨ feq f INF = true)
    let n := if fgt s.peak ONE then fdiv m s.peak else m
    let x := osc s.par c.kind ⟨s.clk, float s.srate.toNat, if degenerate then s.par.fmEps else f⟩
    exec .modeMix s = .next { s with fifo := [], mixout := n, dp := n } ∧
    exec .modeFm s =
      .next
        { s with
          fifo := [], mixout := x, dp := x
          degcnt :=
            if degenerate then (if s.degcnt = 0xFFFFFFFF#32 then 0xFFFFFFFF#32 else s.degcnt + 1#32) else s.degcnt
          status := { s.status with degen := if degenerate then true else s.status.degen } } ∧
    ((∀ n, (voiceAt (drain s) n).active = false) →
      exec .modePoly s =
        .next
          { s with
            fifo := [], voice := (drain s).voice, loudsum := 0x00000000#32, clk := 0x00000000#32
            mixout := 0x00000000#32, dp := 0x00000000#32 }) ∧
    ((∃ n, (voiceAt (drain s) n).active = true) →
      let notes := ((List.range 128).map (BitVec.ofNat 7)).filter fun n => (voiceAt (drain s) n).active
      let acc := notes.foldl
        (fun acc n => fadd acc (fmul (voiceAt (drain s) n).loud
          (osc s.par (ctrlVkind s.ctrl) ⟨s.clk, float s.srate.toNat, noteRom n⟩))) 0x00000000#32
      let tot := notes.foldl (fun tot n => fadd tot (voiceAt (drain s) n).loud) 0x00000000#32
      let q := if fgt tot ONE then fdiv acc tot else acc
      exec .modePoly s =
        .next { s with fifo := [], voice := (drain s).voice, loudsum := tot, mixout := q, dp := q })

/-- FRAME and TICK are one operation (46_frame_pipeline.md R200, 47_commands.md R225). While stopped it does nothing; in a
session it always completes (R201 to R209, R213): the operation MODE selects, volume, the operation FEN selects, clamp, clock
advance, frame count and `out_valid`. Mode 3 cannot be running. -/
def Obligations.FrameRunsSelectedOperations : Prop :=
  ∀ s : State,
    (s.status.run = false → exec .frame s = .next s ∧ exec .tick s = .next s) ∧
    (s.status.run = true → ctrlMode s.ctrl ≠ 3#2 →
      ∃ u v t, exec (decodeMode (ctrlMode s.ctrl)) s = .next u ∧
        exec (decodeFilter (ctrlFen s.ctrl)) { u with dp := fmul u.mixout s.volume } = .next v ∧
        exec .frame s = .next t ∧ exec .tick s = .next t ∧
        t =
          { v with
            out := if fgt v.dp ONE then ONE else if flt v.dp (fneg ONE) then fneg ONE else v.dp
            clk :=
              if ctrlMode s.ctrl = 2#2 ∧ (∀ n, (voiceAt u n).active = false) then u.clk
              else if s.clkmod = 0#32 then fadd u.clk ONE
              else fmodx (fadd u.clk ONE) (float s.clkmod.toNat)
            framecnt := s.framecnt + 1#32, outValid := true })

/-- What each frame writes, every other register unchanged (46_frame_pipeline.md R210). -/
def Obligations.FrameWritesOnlyItsRegisters : Prop :=
  ∀ s t : State, s.status.run = true → exec .frame s = .next t →
    t.par = s.par ∧ t.rst = s.rst ∧ t.ctrl = s.ctrl ∧ t.errcode = s.errcode ∧ t.srate = s.srate ∧ t.clkmod = s.clkmod ∧
    t.volume = s.volume ∧ t.cutoff = s.cutoff ∧ t.alpha = s.alpha ∧ t.peak = s.peak ∧ t.cperiod = s.cperiod ∧
    t.osc = s.osc ∧ t.rdata = s.rdata ∧ t.pending = s.pending ∧ t.fifo = [] ∧ t.framecnt = s.framecnt + 1#32 ∧
    t.outValid = true ∧ t.status = { s.status with degen := t.status.degen } ∧
    (s.status.degen = true → t.status.degen = true) ∧
    (ctrlMode s.ctrl ≠ 1#2 → t.degcnt = s.degcnt ∧ t.status = s.status) ∧
    (ctrlMode s.ctrl ≠ 2#2 → t.voice = s.voice ∧ t.loudsum = s.loudsum) ∧
    (ctrlMode s.ctrl = 2#2 → t.voice = (drain s).voice) ∧
    (ctrlFen s.ctrl = false → t.fstate = s.fstate)

/-- CLOCK ADVANCE (46_frame_pipeline.md R207, R208) over the integers, in the frames that advance the clock (MIX, FM, and POLY
with a voice after the drain): without a modulus the clock counts to 2^24 and stays, with a modulus `m` it runs 0, 1, ...,
m - 1, 0. A POLY frame without a voice leaves it at `+0.0`. -/
def Obligations.ClockCounts : Prop :=
  ∀ s : State, s.status.run = true →
    (∀ k : Nat, s.clk = float k →
      (ctrlMode s.ctrl = 0#2 ∨ ctrlMode s.ctrl = 1#2 ∨
        (ctrlMode s.ctrl = 2#2 ∧ ∃ n, (voiceAt (drain s) n).active = true)) →
      (s.clkmod = 0#32 → k ≤ 2 ^ 24 → ∃ t, exec .frame s = .next t ∧ t.clk = float (min (k + 1) (2 ^ 24))) ∧
      (1 ≤ s.clkmod.toNat → s.clkmod.toNat ≤ 2 ^ 24 → k < s.clkmod.toNat →
        ∃ t, exec .frame s = .next t ∧ t.clk = float ((k + 1) % s.clkmod.toNat))) ∧
    (ctrlMode s.ctrl = 2#2 → (∀ n, (voiceAt (drain s) n).active = false) →
      ∃ t, exec .frame s = .next t ∧ t.clk = 0x00000000#32)

/-! ### Events -/

/-- NOTE_ON and NOTE_OFF, as the drain applies them (44_poly_mixer.md R178, R179). -/
def Obligations.NoteEvents : Prop :=
  ∀ (s : State) (n v : BitVec 7),
    exec (.noteOn n v) s = .next { s with voice := s.voice.set n.toNat ⟨true, loudRom v⟩ } ∧
    ((voiceAt s n).active = true →
      exec (.noteOff n v) s = .next { s with voice := s.voice.set n.toNat ⟨false, 0x00000000#32⟩ }) ∧
    ((voiceAt s n).active = false → exec (.noteOff n v) s = .next s)

/-- PUSH (44_poly_mixer.md R177): a reserved type sets EVTERR, a full FIFO drops the event with EVQOVF, any other event enters
at the tail. -/
def Obligations.PushAcceptance : Prop :=
  ∀ (s : State) (w : Word),
    ((w.extractLsb' 16 2 = 0#2 ∨ w.extractLsb' 16 2 = 3#2) →
      exec (.push w) s = .next { s with status := { s.status with evterr := true } }) ∧
    (exec .evtReservedType0 s = .next { s with status := { s.status with evterr := true } }) ∧
    (exec .evtReservedType3 s = .next { s with status := { s.status with evterr := true } }) ∧
    ((w.extractLsb' 16 2 = 1#2 ∨ w.extractLsb' 16 2 = 2#2) → s.fifo.length = s.par.evqDepth →
      exec (.push w) s = .next { s with status := { s.status with evqovf := true } }) ∧
    (w.extractLsb' 16 2 = 1#2 → s.fifo.length ≠ s.par.evqDepth →
      exec (.push w) s = .next { s with fifo := s.fifo ++ [.on (w.extractLsb' 0 7) (w.extractLsb' 8 7)] }) ∧
    (w.extractLsb' 16 2 = 2#2 → s.fifo.length ≠ s.par.evqDepth →
      exec (.push w) s = .next { s with fifo := s.fifo ++ [.off (w.extractLsb' 0 7) (w.extractLsb' 8 7)] })

/-- The drain (44_poly_mixer.md R171): with no entry it does nothing, and otherwise it runs the operation of the head and goes
on with the rest, until the FIFO is empty. -/
def Obligations.DrainRunsTheHead : Prop :=
  ∀ s : State,
    (drain s).fifo = [] ∧ (s.fifo = [] → drain s = s) ∧
    (∀ n v rest, s.fifo = .on n v :: rest →
      ∃ u, exec (.noteOn n v) { s with fifo := rest } = .next u ∧ drain s = drain u) ∧
    (∀ n v rest, s.fifo = .off n v :: rest →
      ∃ u, exec (.noteOff n v) { s with fifo := rest } = .next u ∧ drain s = drain u)

/-- Arrival order (44_poly_mixer.md R173): a POLY frame leaves each note in the state of the last of its events. The premise is
the invariant of R170. -/
def Obligations.LastEventWins : Prop :=
  ∀ (s : State) (n : BitVec 7), (∀ k, (voiceAt s k).active = false → (voiceAt s k).loud = ZERO) →
    ∃ t, exec .modePoly s = .next t ∧ t.fifo = [] ∧
      voiceAt t n =
        match (s.fifo.filter fun e => match e with | .on k _ => decide (k = n) | .off k _ => decide (k = n)).getLast? with
        | none => voiceAt s n
        | some (.on _ v) => ⟨true, loudRom v⟩
        | some (.off _ _) => ⟨false, 0x00000000#32⟩

/-- LOUD_ROM is the curve of 44_poly_mixer.md R175, and every entry of NOTE_ROM is 440 · 2^((n - 69)/12) to within half a
unit in its last place (R176): there both sides are raised to the power 12 and brought to integers. -/
def Obligations.RomsFollowTheirFormulas : Prop :=
  ∀ n : BitVec 7,
    loudRom n = fmul (fdiv (float n.toNat) (float 127)) (fdiv (float n.toNat) (float 127)) ∧
    inUnitPos (loudRom n) = true ∧
    let u := fUnits (noteRom n)
    let ulp := 2 ^ (fMag (noteRom n) / 2 ^ 23 - 1)
    (2 * u - ulp) ^ 12 * 2 ^ 69 < (2 * 440 * 2 ^ 149) ^ 12 * 2 ^ n.toNat ∧
      (2 * 440 * 2 ^ 149) ^ 12 * 2 ^ n.toNat < (2 * u + ulp) ^ 12 * 2 ^ 69

/-! ### The oscillator -/

/-- The six waveform kinds (40_oscillator.md R122, R126 to R131), and the one oscillator of frames and of the peak search (R120, R134): `osc` of a
code 0 to 5 is the value of the operation the code decodes to (30_encoding.md R97). The value goes on the model's wire `dp`
(log entry 7). -/
def Obligations.WaveformValues : Prop :=
  ∀ (s : State) (a : OscArgs),
    let period := fdiv a.sr a.f
    let t := fdiv (fmodx a.pos period) period
    exec (.silence a) s = .next { s with dp := 0x00000000#32 } ∧
    exec (.sine a) s = .next { s with dp := sineFn s.par t } ∧
    exec (.square a) s = .next { s with dp := if flt t HALF then 0x3F800000#32 else 0xBF800000#32 } ∧
    exec (.sawtooth a) s = .next { s with dp := fsub ONE (fmul TWO t) } ∧
    exec (.triangle a) s =
      .next
        { s with
          dp := if flt t HALF then fmul FOUR (fsub t QUARTER) else fsub ONE (fmul FOUR (fsub t HALF)) } ∧
    exec (.onoff a) s = .next { s with dp := if flt t HALF then 0x3F800000#32 else 0x00000000#32 } ∧
    ∀ (loc : KindLoc) (kind : BitVec 3), kind.toNat ≤ 5 →
      exec (decodeKind loc a kind) s = .next { s with dp := osc s.par kind a }

/-- The phase range (40_oscillator.md R123) on the domain of R121. -/
def Obligations.PhaseStaysBelowOne : Prop :=
  ∀ a : OscArgs, a.wf = true →
    let period := fdiv a.sr a.f
    let r := fmodx a.pos period
    let t := fdiv r period
    fgt period ZERO = true ∧ (period = INF → r = a.pos) ∧ fSign r = false ∧ flt r period = true ∧
      t.toNat ≤ 0x3F7FFFFF ∧ (r = ZERO ∨ period = INF → t = ZERO)

/-- The range of the oscillator (40_oscillator.md R137) on the domain of R121, for every legal sine unit. -/
def Obligations.OscillatorRange : Prop :=
  ∀ (p : Params) (kind : BitVec 3) (a : OscArgs), paramsLegal p = true → kind.toNat ≤ 5 → (kind ≠ 0#3 → a.wf = true) →
    inUnit (osc p kind a) = true ∧ (kind = 0#3 → osc p kind a = ZERO) ∧
    (kind = 2#3 → osc p kind a = ONE ∨ osc p kind a = fneg ONE) ∧
    (kind = 5#3 → osc p kind a = ONE ∨ osc p kind a = ZERO) ∧
    (kind = 3#3 → fle 0xBF7FFFFE#32 (osc p kind a) = true)

/-- Periodicity (40_oscillator.md R132): the same value one integer period later. The sum of the two positions is exact. -/
def Obligations.IntegerPeriodRepeats : Prop :=
  ∀ (p : Params) (kind : BitVec 3) (a : OscArgs) (pos' : F32), 1 ≤ kind.toNat → kind.toNat ≤ 5 → a.wf = true →
    isFinite (fdiv a.sr a.f) = true → fUnits (fdiv a.sr a.f) % 2 ^ 149 = 0 → isClock pos' = true →
    fUnits pos' = fUnits a.pos + fUnits (fdiv a.sr a.f) → osc p kind { a with pos := pos' } = osc p kind a

/-- What every legal sine unit meets (40_oscillator.md R125 (a), (b), (c)), and the reference at the quarter points with tolerance
0. -/
def Obligations.SineUnitProperties : Prop :=
  (∀ p : Params, paramsLegal p = true →
    sineFn p ZERO = ZERO ∧ (∀ t : F32, t.toNat ≤ 0x3F7FFFFF → inUnit (sineFn p t) = true) ∧
    (fInt (sineFn p QUARTER) - fInt ONE).natAbs ≤ fUnits p.sineTol ∧ fUnits (sineFn p HALF) ≤ fUnits p.sineTol ∧
    (fInt (sineFn p 0x3F400000#32) + fInt ONE).natAbs ≤ fUnits p.sineTol) ∧
  sineRef QUARTER = ONE ∧ sineRef HALF = ZERO ∧ sineRef 0x3F400000#32 = fneg ONE ∧ paramsLegal Params.default = true

/-- The reference realisation is the sine (40_oscillator.md R125), to within 2^-24: the value of the pattern in units of
2^-149 against Mathlib's sine of the exact angle. The claim is the sign, the series and the reduction; log entry 4 says what
the model claims beyond it. -/
def Obligations.SineReferenceIsSine : Prop :=
  ∀ t : F32, t.toNat ≤ 0x3F7FFFFF →
    |((fInt (sineRef t) : ℝ) / 2 ^ 149) - Real.sin (2 * Real.pi * ((fUnits t : ℝ) / 2 ^ 149))| ≤ 1 / 2 ^ 24

/-! ### The primitives of 00_scope.md R9 -/

/-- The sum, the difference, the product and the quotient round to nearest, ties to even (00_scope.md R9). The result of finite operands (with
a divisor other than zero) is finite exactly when the exact magnitude is below 2^128 - 2^103, half a unit in the last place
above the greatest finite value, and infinite with the sign of the exact result otherwise: R9 names the IEEE operations and
does not spell out overflow, which is taken from the standard (log entry 17, PRESUMED). Of a finite result, no finite value is
nearer to the exact one, and where another is as near the result has an even fraction field. The numbers are in units of
2^-149 (`limit` is 2^128 - 2^103 in them), and the products and quotients are compared over a common denominator. -/
def Obligations.ArithmeticRoundsToNearestEven : Prop :=
  ∀ a b : F32, isFinite a = true → isFinite b = true →
    let limit : Nat := (2 ^ 25 - 1) * 2 ^ 252
    let sum := fInt a + fInt b
    let difference := fInt a - fInt b
    let product := fInt a * fInt b
    (isFinite (fadd a b) = true ↔ sum.natAbs < limit) ∧
    (limit ≤ sum.natAbs → fadd a b = if sum < 0 then fneg INF else INF) ∧
    (isFinite (fsub a b) = true ↔ difference.natAbs < limit) ∧
    (limit ≤ difference.natAbs → fsub a b = if difference < 0 then fneg INF else INF) ∧
    (isFinite (fmul a b) = true ↔ product.natAbs < limit * 2 ^ 149) ∧
    (limit * 2 ^ 149 ≤ product.natAbs → fmul a b = if product < 0 then fneg INF else INF) ∧
    (fUnits b ≠ 0 →
      (isFinite (fdiv a b) = true ↔ fUnits a * 2 ^ 149 < limit * fUnits b) ∧
      (limit * fUnits b ≤ fUnits a * 2 ^ 149 → fdiv a b = if product < 0 then fneg INF else INF)) ∧
    ∀ y : F32, isFinite y = true →
      (isFinite (fadd a b) = true →
        (fInt (fadd a b) - sum).natAbs ≤ (fInt y - sum).natAbs ∧
        ((fInt (fadd a b) - sum).natAbs = (fInt y - sum).natAbs →
          fInt y ≠ fInt (fadd a b) → fMag (fadd a b) % 2 = 0)) ∧
      (isFinite (fsub a b) = true →
        (fInt (fsub a b) - difference).natAbs ≤ (fInt y - difference).natAbs ∧
        ((fInt (fsub a b) - difference).natAbs = (fInt y - difference).natAbs →
          fInt y ≠ fInt (fsub a b) → fMag (fsub a b) % 2 = 0)) ∧
      (isFinite (fmul a b) = true →
        (fInt (fmul a b) * 2 ^ 149 - product).natAbs ≤ (fInt y * 2 ^ 149 - product).natAbs ∧
        ((fInt (fmul a b) * 2 ^ 149 - product).natAbs = (fInt y * 2 ^ 149 - product).natAbs →
          fInt y ≠ fInt (fmul a b) → fMag (fmul a b) % 2 = 0)) ∧
      (fUnits b ≠ 0 → isFinite (fdiv a b) = true →
        (fInt (fdiv a b) * fInt b - fInt a * 2 ^ 149).natAbs ≤ (fInt y * fInt b - fInt a * 2 ^ 149).natAbs ∧
        ((fInt (fdiv a b) * fInt b - fInt a * 2 ^ 149).natAbs = (fInt y * fInt b - fInt a * 2 ^ 149).natAbs →
          fInt y ≠ fInt (fdiv a b) → fMag (fdiv a b) % 2 = 0))

/-- The remainder is exact with truncation and the sign of `a`, and `float` and `fceil` are exact (00_scope.md R9). -/
def Obligations.RemainderAndConversionsAreExact : Prop :=
  (∀ a b : F32, isFinite a = true → isFinite b = true → fUnits b ≠ 0 →
    fInt (fmodx a b) = (fInt a).tmod (fInt b) ∧ fSign (fmodx a b) = fSign a ∧ isFinite (fmodx a b) = true) ∧
  (∀ a b : F32, isFinite a = true → fmodx a INF = a ∧ (fUnits b = 0 → isFinite b = true → isNaN (fmodx a b) = true)) ∧
  (∀ n : Nat, n ≤ 2 ^ 24 → fInt (float n) = n * 2 ^ 149 ∧ fSign (float n) = false) ∧
  (∀ q : F32, isFinite q = true → fInt q ≤ fceil q * 2 ^ 149 ∧ (fceil q - 1) * 2 ^ 149 < fInt q)

/-- The fields of a pattern, its class and its value (00_scope.md R8), `fabs`, and the comparisons (R9): false whenever an
operand is a NaN, the order of the values on finite operands (so `+0.0 = -0.0`), and the infinities at the two ends. -/
def Obligations.ComparisonsOrderTheValues : Prop :=
  ∀ a b : F32,
    let exponent := a.extractLsb' 23 8
    let fraction := a.extractLsb' 0 23
    (isNaN a = true ↔ exponent = 0xFF#8 ∧ fraction ≠ 0#23) ∧ (isInf a = true ↔ a = INF ∨ a = fneg INF) ∧
    (isFinite a = true ↔ exponent ≠ 0xFF#8) ∧
    fUnits a = (if exponent = 0x00#8 then fraction.toNat else (2 ^ 23 + fraction.toNat) * 2 ^ (exponent.toNat - 1)) ∧
    fInt a = (if a.getLsbD 31 then -(fUnits a : Int) else fUnits a) ∧
    (fabs a).getLsbD 31 = false ∧ (∀ i, i < 31 → (fabs a).getLsbD i = a.getLsbD i) ∧
    ((isNaN a = true ∨ isNaN b = true) → flt a b = false ∧ fle a b = false ∧ feq a b = false) ∧
    (isFinite a = true → isFinite b = true →
      (flt a b = true ↔ fInt a < fInt b) ∧ (fle a b = true ↔ fInt a ≤ fInt b) ∧ (feq a b = true ↔ fInt a = fInt b)) ∧
    (isNaN a = false →
      (flt a INF = true ↔ a ≠ INF) ∧ (flt (fneg INF) a = true ↔ a ≠ fneg INF) ∧
      (fle INF a = true ↔ a = INF) ∧ (fle a (fneg INF) = true ↔ a = fneg INF) ∧
      (feq a INF = true ↔ a = INF) ∧ (feq a (fneg INF) = true ↔ a = fneg INF) ∧
      fle a INF = true ∧ fle (fneg INF) a = true ∧ flt INF a = false ∧ flt a (fneg INF) = false) ∧
    feq a b = feq b a ∧ fgt a b = flt b a ∧ fge a b = fle b a

/-! ### MIX mode -/

/-- The capped fold (41_period_estimator.md R142, R140): the combined period is the cap of the full least common multiple of
the uncapped periods, and is 1 to SRATE. The period of a slot that takes part (R141) is SRATE when the quotient of the rate by
its frequency is infinite, and otherwise the least integer at least the quotient, which is finite and above 0. -/
def Obligations.CombinedPeriodIsCappedLcm : Prop :=
  ∀ s : State, validate s = none → ctrlMode s.ctrl = 0#2 →
    combinedPeriod s =
        min (((s.osc.filter fun o => decide (o.kind ≠ 0#3)).map (slotPeriod s)).foldl Nat.lcm 1) s.srate.toNat ∧
      1 ≤ combinedPeriod s ∧ combinedPeriod s ≤ s.srate.toNat ∧
      ∀ o ∈ s.osc, o.kind ≠ 0#3 →
        let q := fdiv (float s.srate.toNat) o.freq
        (q = INF → slotPeriod s o = s.srate.toNat) ∧
        (q ≠ INF → isFinite q = true ∧ 0 < fInt q ∧ fInt q ≤ (slotPeriod s o : Int) * 2 ^ 149 ∧
          ∀ n : Nat, fInt q ≤ (n : Int) * 2 ^ 149 → slotPeriod s o ≤ n)

/-- The two peak strategies (42_amplitude_normalizer.md R150, R151), as START performs them, and the sum they search (R152). -/
def Obligations.PeakStrategies : Prop :=
  ∀ s : State,
    exec .peakFast s =
      .next { s with peak := float (s.osc.filter fun o => decide (o.kind ∈ [1#3, 2#3, 3#3, 4#3, 5#3])).length } ∧
    exec .peakExact s =
      .next
        { s with
          peak :=
            (List.range s.cperiod.toNat).foldl
              (fun pk k => if fgt (fabs (mixSum s (float k))) pk then fabs (mixSum s (float k)) else pk) 0x00000000#32 } ∧
    ∀ pos : F32, mixSum s pos =
      s.osc.foldl (fun acc o => fadd acc (osc s.par o.kind ⟨pos, float s.srate.toNat, o.freq⟩)) 0x00000000#32

/-- The exact search keeps the first maximum (42_amplitude_normalizer.md R151): no visited magnitude is above PEAK, and PEAK is
`+0.0` or the magnitude at a position below which every magnitude is a NaN or smaller. -/
def Obligations.ExactPeakIsFirstMaximum : Prop :=
  ∀ s : State, ∃ t, exec .peakExact s = .next t ∧
    (∀ k, k < s.cperiod.toNat → fgt (fabs (mixSum s (float k))) t.peak = false) ∧
    (t.peak = ZERO ∨
      ∃ k, k < s.cperiod.toNat ∧ t.peak = fabs (mixSum s (float k)) ∧
        ∀ j, j < k → isNaN (mixSum s (float j)) = true ∨ fgt t.peak (fabs (mixSum s (float j))) = true)

/-- EXACT PEAK ≤ FAST PEAK ≤ N_OSC, and a MIX frame under FAST is within [-1, 1] (42_amplitude_normalizer.md R154, R155). -/
def Obligations.PeakOrderAndNormalisedRange : Prop :=
  ∀ s : State, s.Inv → validate s = none → ctrlMode s.ctrl = 0#2 → s.cperiod.toNat ≤ 2 ^ 24 →
    fle ZERO (exactPeak s) = true ∧ fle (exactPeak s) (fastPeak s) = true ∧
    fle (fastPeak s) (float s.osc.length) = true ∧
    (s.clockOk → s.peak = fastPeak s → ∃ t, exec .modeMix s = .next t ∧ inUnit t.mixout = true)

/-! ### Filter, volume and clamp -/

/-- The filter and its coefficient (45_lowpass_filter.md R190 to R192, R194). The input is the value on the model's wire `dp`
(log entry 7). That a coefficient outside [0.0, 1.0] is START's refusal is 60_exceptions.md R252; that the row ALPHA_DIRECT
performs it is the model's choice (log entry 11). -/
def Obligations.FilterOperations : Prop :=
  ∀ s : State,
    let y := fadd (fmul s.alpha s.dp) (fmul (fsub ONE s.alpha) s.fstate)
    exec .filterBypass s = .next s ∧ exec .filterUpdate s = .next { s with fstate := y, dp := y } ∧
    exec .alphaDerive s =
      .next
        { s with
          alpha := fdiv ONE (fadd ONE (fdiv PI32 (fdiv s.cutoff (fdiv (float s.srate.toNat) TWO)))) } ∧
    (fge s.alpha ZERO = true → fle s.alpha ONE = true → exec .alphaDirect s = .next s) ∧
    (¬(fge s.alpha ZERO = true ∧ fle s.alpha ONE = true) →
      exec .alphaDirect s =
        .next { s with status := { s.status with cfgerr := true }, errcode := 0x00000008#32 })

/-- With ALPHA = 1 the filter passes its input bit for bit, but for `-0.0` (45_lowpass_filter.md R197 (b)). -/
def Obligations.UnitCoefficientPasses : Prop :=
  ∀ s : State, s.alpha = ONE → isFinite s.dp = true → isFinite s.fstate = true →
    ∃ t, exec .filterUpdate s = .next t ∧ (s.dp ≠ 0x80000000#32 → t.dp = s.dp ∧ t.fstate = s.dp) ∧
      (s.dp = 0x80000000#32 → fSign s.fstate = false → t.dp = ZERO ∧ t.fstate = ZERO)

/-- The clamp (46_frame_pipeline.md R206): a number leaves it in [-1, 1], and a number in [-1, 1] passes bit for bit. -/
def Obligations.ClampRange : Prop :=
  ∀ y : F32, isNaN y = false →
    inUnit (clampUnit y) = true ∧ (inUnit y = true → clampUnit y = y) ∧ (fgt y ONE = true → clampUnit y = ONE) ∧
      (flt y (fneg ONE) = true → clampUnit y = fneg ONE)

/-! ### Ranges of a session's frames -/

/-- Every call of the oscillator is in the domain of 40_oscillator.md R121. In the frames of a session: no reserved kind, a legal
rate, a clock position, and a usable frequency (43_fm_composer.md R162, R167); the FM sample is then in [-1, 1] (R164). In
the peak search of START: the same at every position below the combined period. -/
def Obligations.OscillatorCallsAreInDomain : Prop :=
  ∀ s : State,
    (s.Inv → s.status.run = true → s.clockOk →
      (ctrlMode s.ctrl ≠ 2#2 →
        ∀ o ∈ s.osc, o.kind.toNat ≤ 5 ∧ (o.kind ≠ 0#3 → OscArgs.wf ⟨s.clk, sampleRate s, o.freq⟩ = true)) ∧
      (ctrlMode s.ctrl = 1#2 → (carrier s).kind ≠ 0#3 → OscArgs.wf ⟨s.clk, sampleRate s, fmClamped s⟩ = true) ∧
      (ctrlMode s.ctrl = 1#2 → ∃ t, exec .modeFm s = .next t ∧ inUnit t.mixout = true) ∧
      (ctrlMode s.ctrl = 2#2 →
        (ctrlVkind s.ctrl).toNat ≤ 5 ∧ ∀ n, OscArgs.wf ⟨s.clk, sampleRate s, noteRom n⟩ = true)) ∧
    (validate s = none → ctrlMode s.ctrl = 0#2 → ∀ k, k < combinedPeriod s → ∀ o ∈ s.osc,
      o.kind.toNat ≤ 5 ∧ (o.kind ≠ 0#3 → OscArgs.wf ⟨float k, sampleRate s, o.freq⟩ = true))

/-- The magnitude bound of a POLY frame's sample (44_poly_mixer.md R186), and the bound of its loudness sum (R181: "`tot` is at
most 128 and never NaN"). -/
def Obligations.PolyMagnitudeBound : Prop :=
  ∀ s : State, s.Inv → s.status.run = true → s.clockOk → ctrlMode s.ctrl = 2#2 →
    ∃ t, exec .modePoly s = .next t ∧ inUnit t.mixout = true ∧ fle ZERO t.loudsum = true ∧
      fle t.loudsum (float 128) = true

/-- No frame of a session writes a NaN (46_frame_pipeline.md R215, R206): MIXOUT and FSTATE stay finite, of magnitude at most
16, OUT is in [-1, 1], LOUDSUM, which a POLY frame writes (R210), is in [0, 128], and every LOUD is in [0, 1]. The bound on FSTATE is the invariant that carries the claim. -/
def Obligations.FramesWriteNoNaN : Prop :=
  ∀ s : State, s.Inv → s.status.run = true → s.clockOk → fMag s.fstate ≤ fMag (float 16) →
    ∃ t, exec .frame s = .next t ∧ fMag t.mixout ≤ fMag (float 16) ∧ fMag t.fstate ≤ fMag (float 16) ∧ t.outOk ∧ t.clockOk ∧
      (ctrlMode s.ctrl = 2#2 → fle ZERO t.loudsum = true ∧ fle t.loudsum (float 128) = true) ∧
      ∀ n, inUnitPos (voiceAt t n).loud = true

/-! ### Invariants -/

/-- The state after reset meets the invariant, for every legal choice of the parameters. -/
def Obligations.ResetMeetsTheInvariant : Prop :=
  State.reset.Inv ∧
    ∀ (p : Params) (nOsc : Nat) (todo : List Input), paramsLegal p = true → 1 ≤ nOsc → nOsc ≤ 16 →
      (State.resetWith p nOsc false todo).Inv

/-- Every step keeps the invariant. -/
def Obligations.StepKeepsTheInvariant : Prop :=
  ∀ s t : State, s.Inv → step s = .next t → t.Inv

/-- From every state that meets the invariant the step answers a next state (46_frame_pipeline.md R215). -/
def Obligations.StepAlwaysAnswers : Prop :=
  ∀ s : State, s.Inv → s.answers

/-- The step stops in one case alone, a frame asked for (by the tick port or by CMD TICK) while RUN = 1 and MODE = 3 with `rst`
low (46_frame_pipeline.md R201; the fault is the model's, log entry 6), and never with a refusal. -/
def Obligations.OnlyReservedModeStops : Prop :=
  ∀ s : State,
    (∀ e, step s ≠ .refused e) ∧
    ∀ e, step s = .fault e ↔
      e = .reservedModeFrame ∧ s.status.run = true ∧ ctrlMode s.ctrl = 3#2 ∧ s.rst = false ∧
        ∃ rest, s.pending = .tick :: rest ∨ ∃ w, s.pending = .write 0x010#12 2#2 w :: rest ∧ decodeCmd w = .tick

/-- CLK is always a non-negative integer at most 2^24 (10_state.md R31). The premise on CLKMOD is what a running session has by
the field `validated` of the invariant (60_exceptions.md R252, code 0x03). -/
def Obligations.ClockStaysInteger : Prop :=
  State.reset.clockOk ∧
    ∀ s t : State, s.clockOk → (s.status.run = true → s.clkmod.toNat ≤ 2 ^ 24) → step s = .next t → t.clockOk

/-- The parameters and N_OSC are fixed (70_reset_and_hazards.md R284). That every step, one under `rst` or with no request
included, leaves the requests to come without the oldest is the model's choice (log entry 2, DESIGN CHOICE; for a step under
`rst` log entry 9, DEDUCED and unsafe for this clause). -/
def Obligations.ParametersAreFixed : Prop :=
  ∀ s t : State, step s = .next t → t.par = s.par ∧ t.osc.length = s.osc.length ∧ t.pending = s.pending.tail

/-- PEAK and CPERIOD change only at a successful START, a SOFTRESET or a reset (42_amplitude_normalizer.md R156,
70_reset_and_hazards.md R298). -/
def Obligations.SessionConstantsAreLatched : Prop :=
  ∀ (s t : State) (i : Input) (rest : List Input), s.pending = i :: rest → step s = .next t →
    (t.peak ≠ s.peak ∨ t.cperiod ≠ s.cperiod) →
    i = .rst true ∨
      (s.rst = false ∧ ∃ w, i = .write 0x010#12 2#2 w ∧
        (decodeCmd w = .softreset ∨ (decodeCmd w = .start ∧ s.status.run = false ∧ validate s = none)))

/-- RUN is set only by a successful START and cleared only by STOP, SOFTRESET and reset (10_state.md R24). -/
def Obligations.RunChangesOnlyByCommand : Prop :=
  ∀ (s t : State) (i : Input) (rest : List Input), s.pending = i :: rest → step s = .next t →
    (s.status.run = false → t.status.run = true →
      validate s = none ∧ ∃ w, i = .write 0x010#12 2#2 w ∧ decodeCmd w = .start) ∧
    (s.status.run = true → t.status.run = false →
      i = .rst true ∨ ∃ w, i = .write 0x010#12 2#2 w ∧ (decodeCmd w = .stop ∨ decodeCmd w = .softreset))

/-- A sticky bit is cleared only by writing 1 to it, by SOFTRESET or by reset (10_state.md R24), and no step sets more than one
(60_exceptions.md R255). -/
def Obligations.StickyBits : Prop :=
  ∀ (s t : State) (i : Input) (rest : List Input) (b c : Nat), s.pending = i :: rest → step s = .next t →
    8 ≤ b → b ≤ 14 → 8 ≤ c → c ≤ 14 →
    ((statusWord s).getLsbD b = true → (statusWord t).getLsbD b = false →
      i = .rst true ∨ (∃ w, i = .write 0x00C#12 2#2 w ∧ w.getLsbD b = true) ∨
        (∃ w, i = .write 0x010#12 2#2 w ∧ decodeCmd w = .softreset)) ∧
    ((statusWord s).getLsbD b = false → (statusWord t).getLsbD b = true →
      (statusWord s).getLsbD c = false → (statusWord t).getLsbD c = true → b = c)

/-- The configuration is locked for the session (10_state.md R49, 20_memory.md R76). -/
def Obligations.ConfigurationIsLocked : Prop :=
  ∀ s t : State, s.status.run = true → t.status.run = true → step s = .next t →
    t.ctrl = s.ctrl ∧ t.srate = s.srate ∧ t.clkmod = s.clkmod ∧ t.volume = s.volume ∧ t.cutoff = s.cutoff ∧
      t.alpha = s.alpha ∧ t.osc = s.osc

/-- The model's wire `dp` (log entry 7) is not state of the block: its value before a step reaches nothing but itself. -/
def Obligations.WireIsNotObservable : Prop :=
  ∀ (s : State) (d : F32),
    (∀ t, step s = .next t → ∃ e, step { s with dp := d } = .next { t with dp := e }) ∧
    (∀ e, step s = .fault e → step { s with dp := d } = .fault e)
end

