-- ==== Sys2Proof/Laws/Float.lean ====
section
/-! SUPPORT. Rounding: it is monotone, it is exact on what binary32 represents, and the fields of a pattern order the values. -/

namespace Sys2Proof.Machine

/-! ### The nearest integer -/

/-- The nearest integer passes `m` exactly when the quotient lies above `m + 1/2`, or on it with `m` odd. -/
theorem lt_rne_iff {n d : Nat} (hd : 0 < d) (m : Nat) :
    m < rne n d ↔ (2 * m + 1) * d < 2 * n ∨ ((2 * m + 1) * d = 2 * n ∧ m % 2 = 1) := by
  have hq := Nat.div_add_mod n d
  have hr := Nat.mod_lt n hd
  unfold rne
  generalize n / d = q at *
  generalize n % d = r at *
  subst hq
  have key : m < q ∨ m = q ∨ q < m := lt_trichotomy m q
  have e1 : 2 * (d * q + r) = 2 * q * d + 2 * r := by ring
  rw [e1]
  rcases key with h | rfl | h
  · have h1 : (2 * m + 2) * d ≤ 2 * q * d := Nat.mul_le_mul_right d (by omega)
    have h2 : (2 * m + 2) * d = (2 * m + 1) * d + d := by ring
    constructor
    · intro; left; omega
    · intro; split <;> omega
  · have h2 : (2 * m + 1) * d = 2 * m * d + d := by ring
    rw [h2]
    constructor
    · intro h; split at h <;> omega
    · intro h
      rw [if_pos (by omega)]; omega
  · have h1 : (2 * q + 2) * d ≤ 2 * m * d := Nat.mul_le_mul_right d (by omega)
    have h2 : (2 * q + 2) * d = 2 * q * d + 2 * d := by ring
    have h3 : (2 * m + 1) * d = 2 * m * d + d := by ring
    rw [h3]
    constructor
    · intro h; split at h <;> omega
    · intro h; omega

/-- The nearest integer is monotone in the quotient. -/
theorem rne_mono {n d n' d' : Nat} (hd : 0 < d) (hd' : 0 < d') (h : n * d' ≤ n' * d) : rne n d ≤ rne n' d' := by
  by_contra hlt
  push Not at hlt
  have h1 := (lt_rne_iff hd (rne n' d')).1 hlt
  have h2 : ¬ rne n' d' < rne n' d' := lt_irrefl _
  rw [lt_rne_iff hd'] at h2
  push Not at h2
  generalize rne n' d' = m at *
  have hA : (2 * m + 1) * d * d' ≤ 2 * n * d' := Nat.mul_le_mul_right d' (by omega)
  have hB : 2 * n' * d ≤ (2 * m + 1) * d' * d := Nat.mul_le_mul_right d (by omega)
  have hC : 2 * n * d' ≤ 2 * n' * d := by nlinarith
  have hAB : (2 * m + 1) * d * d' = (2 * m + 1) * d' * d := by ring
  have e1 : (2 * m + 1) * d * d' = 2 * n * d' := by omega
  have e2 : 2 * n' * d = (2 * m + 1) * d' * d := by omega
  have e1' := Nat.eq_of_mul_eq_mul_right hd' e1
  have e2' := Nat.eq_of_mul_eq_mul_right hd e2
  rcases h1 with h1 | ⟨_, ho⟩
  · omega
  · exact h2.2 e2'.symm ho

theorem rne_mul (q : Nat) {d : Nat} (hd : 0 < d) : rne (q * d) d = q := by
  unfold rne
  rw [Nat.mul_mod_left, Nat.mul_div_cancel q hd, if_neg (by omega)]

/-- The nearest integer of a quotient below an integer does not pass it. -/
theorem rne_le {n d q : Nat} (hd : 0 < d) (h : n ≤ q * d) : rne n d ≤ q := by
  have := rne_mono hd Nat.one_pos (n' := q) (by omega : n * 1 ≤ q * d)
  have e := rne_mul q Nat.one_pos
  rw [Nat.mul_one] at e
  omega

theorem le_rne {n d q : Nat} (hd : 0 < d) (h : q * d ≤ n) : q ≤ rne n d := by
  have := rne_mono Nat.one_pos hd (n := q) (by omega : q * d ≤ n * 1)
  have e := rne_mul q Nat.one_pos
  rw [Nat.mul_one] at e
  omega

/-! ### Rounding -/

theorem binade_mono {n d n' d' : Nat} (hd : 0 < d) (hd' : 0 < d') (h : n * d' ≤ n' * d) :
    binade n d ≤ binade n' d' := by
  have : n / d ≤ n' / d' := by
    rw [Nat.le_div_iff_mul_le hd']
    have h1 : n / d * d ≤ n := Nat.div_mul_le_self n d
    have : n / d * d' * d ≤ n' * d := by nlinarith
    exact Nat.le_of_mul_le_mul_right this hd
  have := Nat.log_mono_right (b := 2) this
  simp only [binade, Nat.log2_eq_log_two]
  omega

theorem div_lt_binade (n d : Nat) : n / d < 2 ^ (24 + binade n d) := by
  have := Nat.lt_log2_self (n := n / d)
  refine lt_of_lt_of_le this (Nat.pow_le_pow_right (by omega) ?_)
  simp only [binade]; omega

theorem binade_le_div {n d : Nat} (h : 0 < binade n d) : 2 ^ (23 + binade n d) ≤ n / d := by
  have hne : n / d ≠ 0 := by
    intro h0; simp [binade, h0] at h
  have := Nat.log2_self_le hne
  refine le_trans (Nat.pow_le_pow_right (by omega) ?_) this
  simp only [binade] at h ⊢; omega

theorem rne_binade_le {n d : Nat} (hd : 0 < d) : rne n (d * 2 ^ binade n d) ≤ 2 ^ 24 := by
  apply rne_le (Nat.mul_pos hd (Nat.two_pow_pos _))
  have := div_lt_binade n d
  rw [Nat.div_lt_iff_lt_mul hd, pow_add] at this
  nlinarith

theorem le_rne_binade {n d : Nat} (hd : 0 < d) (h : 0 < binade n d) : 2 ^ 23 ≤ rne n (d * 2 ^ binade n d) := by
  apply le_rne (Nat.mul_pos hd (Nat.two_pow_pos _))
  have := binade_le_div h
  rw [Nat.le_div_iff_mul_le hd, pow_add] at this
  nlinarith

/-- Rounding is monotone. -/
theorem roundMag_mono {n d n' d' : Nat} (hd : 0 < d) (hd' : 0 < d') (h : n * d' ≤ n' * d) :
    roundMag n d ≤ roundMag n' d' := by
  have hb := binade_mono hd hd' h
  suffices binade n d * 2 ^ 23 + rne n (d * 2 ^ binade n d) ≤
      binade n' d' * 2 ^ 23 + rne n' (d' * 2 ^ binade n' d') by
    unfold roundMag; omega
  rcases hb.eq_or_lt with he | hl
  · rw [he]
    have := rne_mono (n := n) (d := d * 2 ^ binade n' d') (n' := n') (d' := d' * 2 ^ binade n' d')
      (Nat.mul_pos hd (Nat.two_pow_pos _)) (Nat.mul_pos hd' (Nat.two_pow_pos _)) (by nlinarith [Nat.two_pow_pos (binade n' d')])
    omega
  · have h1 := rne_binade_le (n := n) hd
    have h2 := le_rne_binade (n := n') hd' (by omega)
    have : (binade n d + 1) * 2 ^ 23 ≤ binade n' d' * 2 ^ 23 := Nat.mul_le_mul_right _ hl
    omega

/-- Rounding overflows exactly at half a unit in the last place above the greatest finite value. -/
theorem roundMag_lt_inf_iff {n d : Nat} (hd : 0 < d) : roundMag n d < 0x7F800000 ↔ n < (2 ^ 25 - 1) * 2 ^ 252 * d := by
  constructor
  · intro h
    by_contra hge
    have h1 := roundMag_mono (n := (2 ^ 25 - 1) * 2 ^ 252) (n' := n) Nat.one_pos hd (by omega)
    have h2 : roundMag ((2 ^ 25 - 1) * 2 ^ 252) 1 = 0x7F800000 := by decide +kernel
    omega
  · intro h
    have h0 := roundMag_mono (n := n) (n' := (2 ^ 25 - 1) * 2 ^ 252) hd Nat.one_pos (by omega)
    by_cases hb : binade n d ≤ 252
    · have := rne_binade_le (n := n) hd
      unfold roundMag
      omega
    · have hb' : binade n d = 253 := by
        have := binade_mono (n := n) (n' := (2 ^ 25 - 1) * 2 ^ 252) hd Nat.one_pos (by omega)
        have e : binade ((2 ^ 25 - 1) * 2 ^ 252) 1 = 253 := by decide +kernel
        omega
      have hr : rne n (d * 2 ^ 253) ≤ 2 ^ 24 - 1 := by
        by_contra hlt
        have := (lt_rne_iff (n := n) (Nat.mul_pos hd (Nat.two_pow_pos 253)) (2 ^ 24 - 1)).1 (by omega)
        have e : (2 * (2 ^ 24 - 1) + 1) * (d * 2 ^ 253) = 2 * ((2 ^ 25 - 1) * 2 ^ 252 * d) := by ring
        omega
      unfold roundMag
      rw [hb']
      omega

theorem roundMag_le_inf (n d : Nat) : roundMag n d ≤ 0x7F800000 := by unfold roundMag; omega

/-! ### Patterns -/

theorem fMag_lt (x : F32) : fMag x < 2 ^ 31 := Nat.mod_lt _ (by norm_num)

theorem fMag_packSign (b : Bool) {m : Nat} (h : m < 2 ^ 31) : fMag (packSign b m) = m := by
  have : (2:Nat) ^ 31 = 2147483648 := by norm_num
  cases b <;> simp only [fMag, packSign, BitVec.toNat_ofNat] <;> norm_num <;> omega

theorem fSign_packSign (b : Bool) {m : Nat} (h : m < 2 ^ 31) : fSign (packSign b m) = b := by
  have : (2:Nat) ^ 31 = 2147483648 := by norm_num
  cases b <;> simp only [fSign, packSign, BitVec.toNat_ofNat] <;> norm_num <;> omega

theorem packSign_fields (x : F32) : packSign (fSign x) (fMag x) = x := by
  apply BitVec.eq_of_toNat_eq
  have := x.isLt
  have : (2:Nat) ^ 31 = 2147483648 := by norm_num
  simp only [packSign, fSign, fMag, BitVec.toNat_ofNat, decide_eq_true_eq]
  split <;> omega

/-- A pattern is its sign and its fields. -/
theorem f32_ext {x y : F32} (hs : fSign x = fSign y) (hm : fMag x = fMag y) : x = y := by
  rw [← packSign_fields x, hs, hm, packSign_fields]

/-- Rounding is exact on what is representable. -/
theorem roundMag_fUnits {x : F32} (h : isFinite x = true) : roundMag (fUnits x) 1 = fMag x := by
  have hM : fMag x < 0x7F800000 := by simpa [isFinite] using h
  unfold fUnits
  generalize fMag x = M at *
  split
  · have hlog : Nat.log2 M ≤ 23 := by
      by_cases h0 : M = 0
      · subst h0; decide
      · have := Nat.log2_lt h0 (k := 23) |>.2 (by assumption); omega
    have : binade M 1 = 0 := by simp only [binade, Nat.div_one]; omega
    rw [roundMag, this]
    have := rne_mul M Nat.one_pos
    simp only [Nat.mul_one] at this
    simp only [pow_zero, Nat.mul_one, this]; omega
  · rename_i hge
    have hE : 1 ≤ M / 2 ^ 23 := by rw [Nat.le_div_iff_mul_le (by norm_num)]; omega
    obtain ⟨E, hE'⟩ : ∃ E, M / 2 ^ 23 = E + 1 := ⟨M / 2 ^ 23 - 1, by omega⟩
    have hdm := Nat.div_add_mod M (2 ^ 23)
    have hF := Nat.mod_lt M (show 0 < 2 ^ 23 by norm_num)
    rw [hE'] at hdm ⊢
    generalize M % 2 ^ 23 = F at *
    have hlog : Nat.log2 ((2 ^ 23 + F) * 2 ^ E) = 23 + E := by
      rw [Nat.log2_eq_iff (by positivity)]
      constructor
      · rw [pow_add]; exact Nat.mul_le_mul_right _ (by omega)
      · rw [show 23 + E + 1 = 24 + E by omega, pow_add]
        exact Nat.mul_lt_mul_of_pos_right (by norm_num at hF ⊢; omega) (Nat.two_pow_pos E)
    have hb : binade ((2 ^ 23 + F) * 2 ^ E) 1 = E := by simp only [binade, Nat.div_one, hlog]; omega
    rw [Nat.add_sub_cancel, roundMag, hb, Nat.one_mul, rne_mul _ (Nat.two_pow_pos E)]
    omega

/-- On finite patterns the fields order the magnitudes. -/
theorem fUnits_le_iff {x y : F32} (hx : isFinite x = true) (hy : isFinite y = true) :
    fUnits x ≤ fUnits y ↔ fMag x ≤ fMag y := by
  have mono : ∀ {a b : F32}, isFinite a = true → isFinite b = true → fUnits a ≤ fUnits b → fMag a ≤ fMag b := by
    intro a b ha hb h
    rw [← roundMag_fUnits ha, ← roundMag_fUnits hb]
    exact roundMag_mono Nat.one_pos Nat.one_pos (by omega)
  refine ⟨mono hx hy, fun h => ?_⟩
  by_contra hlt
  have h1 := mono hy hx (by omega)
  have h2 : fMag x = fMag y := by omega
  have : fUnits x = fUnits y := by unfold fUnits; rw [h2]
  omega

/-- A quotient at most a finite value rounds to at most that value. -/
theorem roundMag_le {n d : Nat} {x : F32} (hd : 0 < d) (hx : isFinite x = true) (h : n ≤ fUnits x * d) :
    roundMag n d ≤ fMag x := by
  rw [← roundMag_fUnits hx]
  exact roundMag_mono hd Nat.one_pos (by omega)

/-- A quotient at least a finite value rounds to at least that value. -/
theorem le_roundMag {n d : Nat} {x : F32} (hd : 0 < d) (hx : isFinite x = true) (h : fUnits x * d ≤ n) :
    fMag x ≤ roundMag n d := by
  rw [← roundMag_fUnits hx]
  exact roundMag_mono Nat.one_pos hd (by omega)

/-- An integer of at most 24 significant bits is not changed by rounding. -/
theorem fUnits_roundMag {f e : Nat} (b : Bool) (hf : f < 2 ^ 24) (he : e ≤ 253) :
    fUnits (packSign b (roundMag (f * 2 ^ e) 1)) = f * 2 ^ e := by
  rw [show fUnits (packSign b (roundMag (f * 2 ^ e) 1)) = _ from rfl]
  unfold fUnits
  rw [fMag_packSign b (lt_of_le_of_lt (roundMag_le_inf _ _) (by norm_num))]
  generalize hn : f * 2 ^ e = n
  have hnlt : n < 2 ^ (24 + e) := by
    rw [← hn, pow_add]; exact Nat.mul_lt_mul_of_pos_right hf (Nat.two_pow_pos e)
  by_cases hsmall : n < 2 ^ 24
  · have hb : binade n 1 = 0 := by
      by_cases h0 : n = 0
      · subst h0; decide
      · have := (Nat.log2_lt h0 (k := 24)).2 hsmall
        simp only [binade, Nat.div_one]; omega
    have h1 := rne_mul n Nat.one_pos
    rw [Nat.mul_one] at h1
    have hr : roundMag n 1 = n := by
      rw [roundMag, hb]; simp only [pow_zero, Nat.mul_one, h1]; norm_num at hsmall ⊢; omega
    rw [hr]
    split
    · rfl
    · have hq : n / 2 ^ 23 = 1 := by norm_num at *; omega
      rw [hq]; norm_num at *; omega
  · have hn0 : n ≠ 0 := by intro h; subst h; norm_num at hsmall
    have hlog1 := Nat.log2_self_le hn0
    have hlog2 := Nat.lt_log2_self (n := n)
    have hge : 24 ≤ Nat.log2 n := by
      by_contra hc
      have : n < 2 ^ 24 := lt_of_lt_of_le hlog2 (Nat.pow_le_pow_right (by omega) (by omega))
      exact hsmall this
    have hle : Nat.log2 n < 24 + e := (Nat.log2_lt hn0).2 hnlt
    obtain ⟨E, hE⟩ : ∃ E, Nat.log2 n = 23 + E := ⟨Nat.log2 n - 23, by omega⟩
    have hb : binade n 1 = E := by simp only [binade, Nat.div_one]; omega
    have hEe : E ≤ e := by omega
    obtain ⟨q, hq⟩ : ∃ q, n = q * 2 ^ E := ⟨f * 2 ^ (e - E), by
      rw [← hn, mul_assoc, ← pow_add]; congr 2; omega⟩
    have hq1 : 2 ^ 23 ≤ q := by
      rw [hE, pow_add, hq] at hlog1; exact Nat.le_of_mul_le_mul_right hlog1 (Nat.two_pow_pos E)
    have hq2 : q < 2 ^ 24 := by
      rw [hE, show 23 + E + 1 = 24 + E by omega, pow_add, hq] at hlog2
      exact Nat.lt_of_mul_lt_mul_right hlog2
    have hr : roundMag n 1 = E * 2 ^ 23 + q := by
      rw [roundMag, hb, hq, Nat.one_mul, rne_mul _ (Nat.two_pow_pos E)]
      have : E ≤ 253 := by omega
      norm_num at hq2 ⊢; omega
    rw [hr, if_neg (by norm_num at *; omega)]
    have h1 : (E * 2 ^ 23 + q) / 2 ^ 23 = E + 1 := by norm_num at *; omega
    have h2 : (E * 2 ^ 23 + q) % 2 ^ 23 = q - 2 ^ 23 := by norm_num at *; omega
    have h3 : 2 ^ 23 + (q - 2 ^ 23) = q := Nat.add_sub_cancel' hq1
    rw [h1, h2, h3, hq, show E + 1 - 1 = E from rfl]

/-! ### Values and comparisons -/

theorem isNaN_of_finite {x : F32} (h : isFinite x = true) : isNaN x = false := by
  simp only [isFinite, isNaN, decide_eq_true_eq, decide_eq_false_iff_not] at *; omega

theorem isInf_of_finite {x : F32} (h : isFinite x = true) : isInf x = false := by
  simp only [isFinite, isInf, decide_eq_true_eq, decide_eq_false_iff_not] at *; omega

/-- A pattern whose fields do not pass those of a finite value is finite. -/
theorem isFinite_of_fMag_le {x y : F32} (hy : isFinite y = true) (h : fMag x ≤ fMag y) : isFinite x = true := by
  simp only [isFinite, decide_eq_true_eq] at *; omega

theorem fMag_eq_zero_iff {x : F32} (h : isFinite x = true) : fUnits x = 0 ↔ fMag x = 0 := by
  have hz : isFinite (0#32) = true := by decide
  have h1 := fUnits_le_iff h hz
  have e1 : fUnits (0#32) = 0 := by decide
  have e2 : fMag (0#32) = 0 := by decide
  rw [e1, e2] at h1; omega

theorem natAbs_fInt (x : F32) : (fInt x).natAbs = fUnits x := by
  unfold fInt; split <;> simp

/-- On finite patterns the order of the patterns is the order of the values. -/
theorem fKey_le_iff {x y : F32} (hx : isFinite x = true) (hy : isFinite y = true) :
    fKey x ≤ fKey y ↔ fInt x ≤ fInt y := by
  have h1 := fUnits_le_iff hx hy
  have h2 := fUnits_le_iff hy hx
  have h3 := fMag_eq_zero_iff hx
  have h4 := fMag_eq_zero_iff hy
  unfold fKey fInt
  split <;> split <;> omega

theorem fKey_lt_iff {x y : F32} (hx : isFinite x = true) (hy : isFinite y = true) :
    fKey x < fKey y ↔ fInt x < fInt y := by
  have := fKey_le_iff hy hx
  omega

theorem fle_iff {x y : F32} (hx : isFinite x = true) (hy : isFinite y = true) : fle x y = true ↔ fInt x ≤ fInt y := by
  simp [fle, isNaN_of_finite hx, isNaN_of_finite hy, fKey_le_iff hx hy]

theorem flt_iff {x y : F32} (hx : isFinite x = true) (hy : isFinite y = true) : flt x y = true ↔ fInt x < fInt y := by
  simp [flt, isNaN_of_finite hx, isNaN_of_finite hy, fKey_lt_iff hx hy]

/-- [-1.0, 1.0] is the patterns whose fields are at most those of ONE. -/
theorem inUnit_iff (x : F32) : inUnit x = true ↔ fMag x ≤ 0x3F800000 := by
  have e1 : fKey (fneg ONE) = -(0x3F800000 : Int) := by decide
  have e2 : fKey ONE = (0x3F800000 : Int) := by decide
  have e3 : isNaN (fneg ONE) = false := by decide
  have e4 : isNaN ONE = false := by decide
  simp only [inUnit, fle, e1, e2, e3, e4, Bool.not_false, Bool.true_and, Bool.and_true, Bool.and_eq_true,
    Bool.not_eq_true', decide_eq_true_eq]
  simp only [isNaN, fKey, decide_eq_false_iff_not]
  split <;> omega

/-! ### Bounds of the operations -/

theorem fMag_fneg (x : F32) : fMag (fneg x) = fMag x := by
  have h : (fneg x).extractLsb' 0 31 = x.extractLsb' 0 31 := by
    ext i hi
    have : ¬ (i = 31) := by omega
    simp [fneg, BitVec.getElem_extractLsb', BitVec.getLsbD_xor]
    have hk : ∀ j : Nat, j < 31 → (2147483648#32).getLsbD j = false := by decide
    rw [hk i hi]; simp
  have := congrArg BitVec.toNat h
  simpa [fMag, BitVec.extractLsb'_toNat] using this

theorem fMag_fabs (x : F32) : fMag (fabs x) = fMag x := by
  have h : (fabs x).extractLsb' 0 31 = x.extractLsb' 0 31 := by
    ext i hi
    have hk : ∀ j : Nat, j < 31 → (2147483647#32).getLsbD j = true := by decide
    simp [fabs, BitVec.getElem_extractLsb', BitVec.getLsbD_and]
    rw [hk i hi]; simp
  have := congrArg BitVec.toNat h
  simpa [fMag, BitVec.extractLsb'_toNat] using this

theorem roundMag_lt (n d : Nat) : roundMag n d < 2 ^ 31 := lt_of_le_of_lt (roundMag_le_inf n d) (by norm_num)

/-- A sum of finite values whose exact magnitude does not pass a finite value does not pass it after rounding. -/
theorem fMag_fadd_le {a b y : F32} (ha : isFinite a = true) (hb : isFinite b = true) (hy : isFinite y = true)
    (h : (fInt a + fInt b).natAbs ≤ fUnits y) : fMag (fadd a b) ≤ fMag y := by
  unfold fadd
  simp only [isNaN_of_finite ha, isNaN_of_finite hb, isInf_of_finite ha, isInf_of_finite hb, Bool.or_self,
    Bool.false_eq_true, if_false]
  split
  · rw [fMag_packSign _ (by norm_num)]; omega
  · rw [fMag_packSign _ (roundMag_lt _ _)]; exact roundMag_le Nat.one_pos hy (by omega)

/-- A product of finite values, likewise. -/
theorem fMag_fmul_le {a b y : F32} (ha : isFinite a = true) (hb : isFinite b = true) (hy : isFinite y = true)
    (h : fUnits a * fUnits b ≤ fUnits y * 2 ^ 149) : fMag (fmul a b) ≤ fMag y := by
  unfold fmul
  simp only [isNaN_of_finite ha, isNaN_of_finite hb, isInf_of_finite ha, isInf_of_finite hb, Bool.or_self,
    Bool.false_eq_true, if_false]
  rw [fMag_packSign _ (roundMag_lt _ _)]
  exact roundMag_le (by positivity) hy h

/-- A quotient of finite values with a divisor other than zero, likewise. -/
theorem fMag_fdiv_le {a b y : F32} (ha : isFinite a = true) (hb : isFinite b = true) (hb0 : 0 < fUnits b)
    (hy : isFinite y = true) (h : fUnits a * 2 ^ 149 ≤ fUnits y * fUnits b) : fMag (fdiv a b) ≤ fMag y := by
  have hz : isZero b = false := by
    have := fMag_eq_zero_iff hb
    simp only [isZero, decide_eq_false_iff_not]; omega
  unfold fdiv
  simp only [isNaN_of_finite ha, isNaN_of_finite hb, isInf_of_finite ha, isInf_of_finite hb, hz, Bool.or_self,
    Bool.false_eq_true, if_false]
  rw [fMag_packSign _ (roundMag_lt _ _)]
  exact roundMag_le hb0 hy h

/-- A difference of finite values is the sum with the second negated. -/
theorem fsub_of_finite {a b : F32} (ha : isFinite a = true) (hb : isFinite b = true) : fsub a b = fadd a (fneg b) := by
  simp [fsub, isNaN_of_finite ha, isNaN_of_finite hb, isInf_of_finite ha]

theorem isFinite_fneg (x : F32) : isFinite (fneg x) = isFinite x := by simp only [isFinite, fMag_fneg]

theorem fSign_fneg (x : F32) : fSign (fneg x) = !fSign x := by
  have h : ∀ y : F32, fSign y = y.msb := fun y => (BitVec.msb_eq_decide y).symm
  rw [h, h, fneg, BitVec.msb_xor]; cases x.msb <;> decide

theorem fInt_fneg (x : F32) : fInt (fneg x) = -fInt x := by
  have hu : fUnits (fneg x) = fUnits x := by unfold fUnits; rw [fMag_fneg]
  unfold fInt
  rw [hu, fSign_fneg]
  cases fSign x <;> simp

end Sys2Proof.Machine
end

