-- ==== Sys2Proof/Laws/State.lean ====
section
/-! SUPPORT. What each named update of State leaves in each field, true by rfl: no later proof unfolds a record update. -/

namespace Sys2Proof.Machine

@[simp] theorem raise_fields (e : Err) (s : State) :
    (raise e s).par = s.par ∧ (raise e s).rst = s.rst ∧ (raise e s).ctrl = s.ctrl ∧
    (raise e s).status = stickySet e s.status ∧ (raise e s).errcode = s.errcode ∧ (raise e s).srate = s.srate ∧
    (raise e s).clkmod = s.clkmod ∧ (raise e s).volume = s.volume ∧ (raise e s).cutoff = s.cutoff ∧
    (raise e s).alpha = s.alpha ∧ (raise e s).clk = s.clk ∧ (raise e s).fstate = s.fstate ∧
    (raise e s).peak = s.peak ∧ (raise e s).cperiod = s.cperiod ∧ (raise e s).degcnt = s.degcnt ∧
    (raise e s).framecnt = s.framecnt ∧ (raise e s).mixout = s.mixout ∧ (raise e s).out = s.out ∧
    (raise e s).loudsum = s.loudsum ∧ (raise e s).osc = s.osc ∧ (raise e s).voice = s.voice ∧
    (raise e s).fifo = s.fifo ∧ (raise e s).dp = s.dp ∧ (raise e s).rdata = s.rdata ∧
    (raise e s).outValid = s.outValid ∧ (raise e s).pending = s.pending :=
  ⟨rfl, rfl, rfl, rfl, rfl, rfl, rfl, rfl, rfl, rfl, rfl, rfl, rfl, rfl, rfl, rfl, rfl, rfl, rfl, rfl, rfl, rfl, rfl, rfl, rfl, rfl⟩

@[simp] theorem startFailed_fields (c l : BitVec 8) (s : State) :
    (startFailed c l s).par = s.par ∧ (startFailed c l s).rst = s.rst ∧ (startFailed c l s).ctrl = s.ctrl ∧
    (startFailed c l s).status = stickySet .cfgerr s.status ∧ (startFailed c l s).errcode = (l ++ c).setWidth 32 ∧ (startFailed c l s).srate = s.srate ∧
    (startFailed c l s).clkmod = s.clkmod ∧ (startFailed c l s).volume = s.volume ∧ (startFailed c l s).cutoff = s.cutoff ∧
    (startFailed c l s).alpha = s.alpha ∧ (startFailed c l s).clk = s.clk ∧ (startFailed c l s).fstate = s.fstate ∧
    (startFailed c l s).peak = s.peak ∧ (startFailed c l s).cperiod = s.cperiod ∧ (startFailed c l s).degcnt = s.degcnt ∧
    (startFailed c l s).framecnt = s.framecnt ∧ (startFailed c l s).mixout = s.mixout ∧ (startFailed c l s).out = s.out ∧
    (startFailed c l s).loudsum = s.loudsum ∧ (startFailed c l s).osc = s.osc ∧ (startFailed c l s).voice = s.voice ∧
    (startFailed c l s).fifo = s.fifo ∧ (startFailed c l s).dp = s.dp ∧ (startFailed c l s).rdata = s.rdata ∧
    (startFailed c l s).outValid = s.outValid ∧ (startFailed c l s).pending = s.pending :=
  ⟨rfl, rfl, rfl, rfl, rfl, rfl, rfl, rfl, rfl, rfl, rfl, rfl, rfl, rfl, rfl, rfl, rfl, rfl, rfl, rfl, rfl, rfl, rfl, rfl, rfl, rfl⟩

@[simp] theorem acknowledge_fields (w : Word) (s : State) :
    (acknowledge w s).par = s.par ∧ (acknowledge w s).rst = s.rst ∧ (acknowledge w s).ctrl = s.ctrl ∧
    (acknowledge w s).status = stickyClear w s.status ∧ (acknowledge w s).errcode = (if w.getLsbD 8 then 0#32 else s.errcode) ∧ (acknowledge w s).srate = s.srate ∧
    (acknowledge w s).clkmod = s.clkmod ∧ (acknowledge w s).volume = s.volume ∧ (acknowledge w s).cutoff = s.cutoff ∧
    (acknowledge w s).alpha = s.alpha ∧ (acknowledge w s).clk = s.clk ∧ (acknowledge w s).fstate = s.fstate ∧
    (acknowledge w s).peak = s.peak ∧ (acknowledge w s).cperiod = s.cperiod ∧ (acknowledge w s).degcnt = s.degcnt ∧
    (acknowledge w s).framecnt = s.framecnt ∧ (acknowledge w s).mixout = s.mixout ∧ (acknowledge w s).out = s.out ∧
    (acknowledge w s).loudsum = s.loudsum ∧ (acknowledge w s).osc = s.osc ∧ (acknowledge w s).voice = s.voice ∧
    (acknowledge w s).fifo = s.fifo ∧ (acknowledge w s).dp = s.dp ∧ (acknowledge w s).rdata = s.rdata ∧
    (acknowledge w s).outValid = s.outValid ∧ (acknowledge w s).pending = s.pending :=
  ⟨rfl, rfl, rfl, rfl, rfl, rfl, rfl, rfl, rfl, rfl, rfl, rfl, rfl, rfl, rfl, rfl, rfl, rfl, rfl, rfl, rfl, rfl, rfl, rfl, rfl, rfl⟩

@[simp] theorem setVoice_fields (n : BitVec 7) (v : Voice) (s : State) :
    (setVoice n v s).par = s.par ∧ (setVoice n v s).rst = s.rst ∧ (setVoice n v s).ctrl = s.ctrl ∧
    (setVoice n v s).status = s.status ∧ (setVoice n v s).errcode = s.errcode ∧ (setVoice n v s).srate = s.srate ∧
    (setVoice n v s).clkmod = s.clkmod ∧ (setVoice n v s).volume = s.volume ∧ (setVoice n v s).cutoff = s.cutoff ∧
    (setVoice n v s).alpha = s.alpha ∧ (setVoice n v s).clk = s.clk ∧ (setVoice n v s).fstate = s.fstate ∧
    (setVoice n v s).peak = s.peak ∧ (setVoice n v s).cperiod = s.cperiod ∧ (setVoice n v s).degcnt = s.degcnt ∧
    (setVoice n v s).framecnt = s.framecnt ∧ (setVoice n v s).mixout = s.mixout ∧ (setVoice n v s).out = s.out ∧
    (setVoice n v s).loudsum = s.loudsum ∧ (setVoice n v s).osc = s.osc ∧ (setVoice n v s).voice = s.voice.set n.toNat v ∧
    (setVoice n v s).fifo = s.fifo ∧ (setVoice n v s).dp = s.dp ∧ (setVoice n v s).rdata = s.rdata ∧
    (setVoice n v s).outValid = s.outValid ∧ (setVoice n v s).pending = s.pending :=
  ⟨rfl, rfl, rfl, rfl, rfl, rfl, rfl, rfl, rfl, rfl, rfl, rfl, rfl, rfl, rfl, rfl, rfl, rfl, rfl, rfl, rfl, rfl, rfl, rfl, rfl, rfl⟩

@[simp] theorem clearVoices_fields (s : State) :
    (clearVoices s).par = s.par ∧ (clearVoices s).rst = s.rst ∧ (clearVoices s).ctrl = s.ctrl ∧
    (clearVoices s).status = s.status ∧ (clearVoices s).errcode = s.errcode ∧ (clearVoices s).srate = s.srate ∧
    (clearVoices s).clkmod = s.clkmod ∧ (clearVoices s).volume = s.volume ∧ (clearVoices s).cutoff = s.cutoff ∧
    (clearVoices s).alpha = s.alpha ∧ (clearVoices s).clk = s.clk ∧ (clearVoices s).fstate = s.fstate ∧
    (clearVoices s).peak = s.peak ∧ (clearVoices s).cperiod = s.cperiod ∧ (clearVoices s).degcnt = s.degcnt ∧
    (clearVoices s).framecnt = s.framecnt ∧ (clearVoices s).mixout = s.mixout ∧ (clearVoices s).out = s.out ∧
    (clearVoices s).loudsum = s.loudsum ∧ (clearVoices s).osc = s.osc ∧ (clearVoices s).voice = Vector.replicate 128 {} ∧
    (clearVoices s).fifo = s.fifo ∧ (clearVoices s).dp = s.dp ∧ (clearVoices s).rdata = s.rdata ∧
    (clearVoices s).outValid = s.outValid ∧ (clearVoices s).pending = s.pending :=
  ⟨rfl, rfl, rfl, rfl, rfl, rfl, rfl, rfl, rfl, rfl, rfl, rfl, rfl, rfl, rfl, rfl, rfl, rfl, rfl, rfl, rfl, rfl, rfl, rfl, rfl, rfl⟩

@[simp] theorem clearFifo_fields (s : State) :
    (clearFifo s).par = s.par ∧ (clearFifo s).rst = s.rst ∧ (clearFifo s).ctrl = s.ctrl ∧
    (clearFifo s).status = s.status ∧ (clearFifo s).errcode = s.errcode ∧ (clearFifo s).srate = s.srate ∧
    (clearFifo s).clkmod = s.clkmod ∧ (clearFifo s).volume = s.volume ∧ (clearFifo s).cutoff = s.cutoff ∧
    (clearFifo s).alpha = s.alpha ∧ (clearFifo s).clk = s.clk ∧ (clearFifo s).fstate = s.fstate ∧
    (clearFifo s).peak = s.peak ∧ (clearFifo s).cperiod = s.cperiod ∧ (clearFifo s).degcnt = s.degcnt ∧
    (clearFifo s).framecnt = s.framecnt ∧ (clearFifo s).mixout = s.mixout ∧ (clearFifo s).out = s.out ∧
    (clearFifo s).loudsum = s.loudsum ∧ (clearFifo s).osc = s.osc ∧ (clearFifo s).voice = s.voice ∧
    (clearFifo s).fifo = [] ∧ (clearFifo s).dp = s.dp ∧ (clearFifo s).rdata = s.rdata ∧
    (clearFifo s).outValid = s.outValid ∧ (clearFifo s).pending = s.pending :=
  ⟨rfl, rfl, rfl, rfl, rfl, rfl, rfl, rfl, rfl, rfl, rfl, rfl, rfl, rfl, rfl, rfl, rfl, rfl, rfl, rfl, rfl, rfl, rfl, rfl, rfl, rfl⟩

@[simp] theorem pushTail_fields (e : Event) (s : State) :
    (pushTail e s).par = s.par ∧ (pushTail e s).rst = s.rst ∧ (pushTail e s).ctrl = s.ctrl ∧
    (pushTail e s).status = s.status ∧ (pushTail e s).errcode = s.errcode ∧ (pushTail e s).srate = s.srate ∧
    (pushTail e s).clkmod = s.clkmod ∧ (pushTail e s).volume = s.volume ∧ (pushTail e s).cutoff = s.cutoff ∧
    (pushTail e s).alpha = s.alpha ∧ (pushTail e s).clk = s.clk ∧ (pushTail e s).fstate = s.fstate ∧
    (pushTail e s).peak = s.peak ∧ (pushTail e s).cperiod = s.cperiod ∧ (pushTail e s).degcnt = s.degcnt ∧
    (pushTail e s).framecnt = s.framecnt ∧ (pushTail e s).mixout = s.mixout ∧ (pushTail e s).out = s.out ∧
    (pushTail e s).loudsum = s.loudsum ∧ (pushTail e s).osc = s.osc ∧ (pushTail e s).voice = s.voice ∧
    (pushTail e s).fifo = s.fifo ++ [e] ∧ (pushTail e s).dp = s.dp ∧ (pushTail e s).rdata = s.rdata ∧
    (pushTail e s).outValid = s.outValid ∧ (pushTail e s).pending = s.pending :=
  ⟨rfl, rfl, rfl, rfl, rfl, rfl, rfl, rfl, rfl, rfl, rfl, rfl, rfl, rfl, rfl, rfl, rfl, rfl, rfl, rfl, rfl, rfl, rfl, rfl, rfl, rfl⟩

@[simp] theorem returns_fields (v : F32) (s : State) :
    (returns v s).par = s.par ∧ (returns v s).rst = s.rst ∧ (returns v s).ctrl = s.ctrl ∧
    (returns v s).status = s.status ∧ (returns v s).errcode = s.errcode ∧ (returns v s).srate = s.srate ∧
    (returns v s).clkmod = s.clkmod ∧ (returns v s).volume = s.volume ∧ (returns v s).cutoff = s.cutoff ∧
    (returns v s).alpha = s.alpha ∧ (returns v s).clk = s.clk ∧ (returns v s).fstate = s.fstate ∧
    (returns v s).peak = s.peak ∧ (returns v s).cperiod = s.cperiod ∧ (returns v s).degcnt = s.degcnt ∧
    (returns v s).framecnt = s.framecnt ∧ (returns v s).mixout = s.mixout ∧ (returns v s).out = s.out ∧
    (returns v s).loudsum = s.loudsum ∧ (returns v s).osc = s.osc ∧ (returns v s).voice = s.voice ∧
    (returns v s).fifo = s.fifo ∧ (returns v s).dp = v ∧ (returns v s).rdata = s.rdata ∧
    (returns v s).outValid = s.outValid ∧ (returns v s).pending = s.pending :=
  ⟨rfl, rfl, rfl, rfl, rfl, rfl, rfl, rfl, rfl, rfl, rfl, rfl, rfl, rfl, rfl, rfl, rfl, rfl, rfl, rfl, rfl, rfl, rfl, rfl, rfl, rfl⟩

@[simp] theorem mixedSample_fields (m : F32) (s : State) :
    (mixedSample m s).par = s.par ∧ (mixedSample m s).rst = s.rst ∧ (mixedSample m s).ctrl = s.ctrl ∧
    (mixedSample m s).status = s.status ∧ (mixedSample m s).errcode = s.errcode ∧ (mixedSample m s).srate = s.srate ∧
    (mixedSample m s).clkmod = s.clkmod ∧ (mixedSample m s).volume = s.volume ∧ (mixedSample m s).cutoff = s.cutoff ∧
    (mixedSample m s).alpha = s.alpha ∧ (mixedSample m s).clk = s.clk ∧ (mixedSample m s).fstate = s.fstate ∧
    (mixedSample m s).peak = s.peak ∧ (mixedSample m s).cperiod = s.cperiod ∧ (mixedSample m s).degcnt = s.degcnt ∧
    (mixedSample m s).framecnt = s.framecnt ∧ (mixedSample m s).mixout = m ∧ (mixedSample m s).out = s.out ∧
    (mixedSample m s).loudsum = s.loudsum ∧ (mixedSample m s).osc = s.osc ∧ (mixedSample m s).voice = s.voice ∧
    (mixedSample m s).fifo = s.fifo ∧ (mixedSample m s).dp = m ∧ (mixedSample m s).rdata = s.rdata ∧
    (mixedSample m s).outValid = s.outValid ∧ (mixedSample m s).pending = s.pending :=
  ⟨rfl, rfl, rfl, rfl, rfl, rfl, rfl, rfl, rfl, rfl, rfl, rfl, rfl, rfl, rfl, rfl, rfl, rfl, rfl, rfl, rfl, rfl, rfl, rfl, rfl, rfl⟩

@[simp] theorem setRun_fields (b : Bool) (s : State) :
    (setRun b s).par = s.par ∧ (setRun b s).rst = s.rst ∧ (setRun b s).ctrl = s.ctrl ∧
    (setRun b s).status = { s.status with run := b } ∧ (setRun b s).errcode = s.errcode ∧ (setRun b s).srate = s.srate ∧
    (setRun b s).clkmod = s.clkmod ∧ (setRun b s).volume = s.volume ∧ (setRun b s).cutoff = s.cutoff ∧
    (setRun b s).alpha = s.alpha ∧ (setRun b s).clk = s.clk ∧ (setRun b s).fstate = s.fstate ∧
    (setRun b s).peak = s.peak ∧ (setRun b s).cperiod = s.cperiod ∧ (setRun b s).degcnt = s.degcnt ∧
    (setRun b s).framecnt = s.framecnt ∧ (setRun b s).mixout = s.mixout ∧ (setRun b s).out = s.out ∧
    (setRun b s).loudsum = s.loudsum ∧ (setRun b s).osc = s.osc ∧ (setRun b s).voice = s.voice ∧
    (setRun b s).fifo = s.fifo ∧ (setRun b s).dp = s.dp ∧ (setRun b s).rdata = s.rdata ∧
    (setRun b s).outValid = s.outValid ∧ (setRun b s).pending = s.pending :=
  ⟨rfl, rfl, rfl, rfl, rfl, rfl, rfl, rfl, rfl, rfl, rfl, rfl, rfl, rfl, rfl, rfl, rfl, rfl, rfl, rfl, rfl, rfl, rfl, rfl, rfl, rfl⟩

@[simp] theorem setSlot_fields (i : Nat) (f : OscSlot → OscSlot) (s : State) :
    (setSlot i f s).par = s.par ∧ (setSlot i f s).rst = s.rst ∧ (setSlot i f s).ctrl = s.ctrl ∧
    (setSlot i f s).status = s.status ∧ (setSlot i f s).errcode = s.errcode ∧ (setSlot i f s).srate = s.srate ∧
    (setSlot i f s).clkmod = s.clkmod ∧ (setSlot i f s).volume = s.volume ∧ (setSlot i f s).cutoff = s.cutoff ∧
    (setSlot i f s).alpha = s.alpha ∧ (setSlot i f s).clk = s.clk ∧ (setSlot i f s).fstate = s.fstate ∧
    (setSlot i f s).peak = s.peak ∧ (setSlot i f s).cperiod = s.cperiod ∧ (setSlot i f s).degcnt = s.degcnt ∧
    (setSlot i f s).framecnt = s.framecnt ∧ (setSlot i f s).mixout = s.mixout ∧ (setSlot i f s).out = s.out ∧
    (setSlot i f s).loudsum = s.loudsum ∧ (setSlot i f s).osc = s.osc.modify i f ∧ (setSlot i f s).voice = s.voice ∧
    (setSlot i f s).fifo = s.fifo ∧ (setSlot i f s).dp = s.dp ∧ (setSlot i f s).rdata = s.rdata ∧
    (setSlot i f s).outValid = s.outValid ∧ (setSlot i f s).pending = s.pending :=
  ⟨rfl, rfl, rfl, rfl, rfl, rfl, rfl, rfl, rfl, rfl, rfl, rfl, rfl, rfl, rfl, rfl, rfl, rfl, rfl, rfl, rfl, rfl, rfl, rfl, rfl, rfl⟩

@[simp] theorem drives_fields (v : Word) (s : State) :
    (drives v s).par = s.par ∧ (drives v s).rst = s.rst ∧ (drives v s).ctrl = s.ctrl ∧
    (drives v s).status = s.status ∧ (drives v s).errcode = s.errcode ∧ (drives v s).srate = s.srate ∧
    (drives v s).clkmod = s.clkmod ∧ (drives v s).volume = s.volume ∧ (drives v s).cutoff = s.cutoff ∧
    (drives v s).alpha = s.alpha ∧ (drives v s).clk = s.clk ∧ (drives v s).fstate = s.fstate ∧
    (drives v s).peak = s.peak ∧ (drives v s).cperiod = s.cperiod ∧ (drives v s).degcnt = s.degcnt ∧
    (drives v s).framecnt = s.framecnt ∧ (drives v s).mixout = s.mixout ∧ (drives v s).out = s.out ∧
    (drives v s).loudsum = s.loudsum ∧ (drives v s).osc = s.osc ∧ (drives v s).voice = s.voice ∧
    (drives v s).fifo = s.fifo ∧ (drives v s).dp = s.dp ∧ (drives v s).rdata = some v ∧
    (drives v s).outValid = s.outValid ∧ (drives v s).pending = s.pending :=
  ⟨rfl, rfl, rfl, rfl, rfl, rfl, rfl, rfl, rfl, rfl, rfl, rfl, rfl, rfl, rfl, rfl, rfl, rfl, rfl, rfl, rfl, rfl, rfl, rfl, rfl, rfl⟩

@[simp] theorem takeRequest_fields (r : List Input) (s : State) :
    (takeRequest r s).par = s.par ∧ (takeRequest r s).rst = s.rst ∧ (takeRequest r s).ctrl = s.ctrl ∧
    (takeRequest r s).status = s.status ∧ (takeRequest r s).errcode = s.errcode ∧ (takeRequest r s).srate = s.srate ∧
    (takeRequest r s).clkmod = s.clkmod ∧ (takeRequest r s).volume = s.volume ∧ (takeRequest r s).cutoff = s.cutoff ∧
    (takeRequest r s).alpha = s.alpha ∧ (takeRequest r s).clk = s.clk ∧ (takeRequest r s).fstate = s.fstate ∧
    (takeRequest r s).peak = s.peak ∧ (takeRequest r s).cperiod = s.cperiod ∧ (takeRequest r s).degcnt = s.degcnt ∧
    (takeRequest r s).framecnt = s.framecnt ∧ (takeRequest r s).mixout = s.mixout ∧ (takeRequest r s).out = s.out ∧
    (takeRequest r s).loudsum = s.loudsum ∧ (takeRequest r s).osc = s.osc ∧ (takeRequest r s).voice = s.voice ∧
    (takeRequest r s).fifo = s.fifo ∧ (takeRequest r s).dp = s.dp ∧ (takeRequest r s).rdata = none ∧
    (takeRequest r s).outValid = false ∧ (takeRequest r s).pending = r :=
  ⟨rfl, rfl, rfl, rfl, rfl, rfl, rfl, rfl, rfl, rfl, rfl, rfl, rfl, rfl, rfl, rfl, rfl, rfl, rfl, rfl, rfl, rfl, rfl, rfl, rfl, rfl⟩

end Sys2Proof.Machine
end

