-- ==== Sys2Proof/Laws/Ops.lean ====
section
/-! SUPPORT. For each shared operation, once, everything it can do; proofs cite these instead of unfolding the operation. -/

namespace Sys2Proof.Machine

/-! ### Sequencing -/

@[simp] theorem andThen_next (s : State) (k : State → Result) : andThen (.next s) k = k s := rfl

@[simp] theorem andThen_fault (e : Fault) (k : State → Result) : andThen (.fault e) k = .fault e := rfl

theorem andThen_eq_next {r : Result} {k : State → Result} {t : State} :
    andThen r k = .next t ↔ ∃ u, r = .next u ∧ k u = .next t := by
  cases r <;> simp [andThen]

/-! ### The voice table -/

theorem voiceAt_setVoice (n m : BitVec 7) (v : Voice) (s : State) :
    voiceAt (setVoice n v s) m = if m = n then v else voiceAt s m := by
  by_cases h : m = n
  · subst h; simp [voiceAt]
  · have : n.toNat ≠ m.toNat := fun e => h (BitVec.eq_of_toNat_eq e.symm)
    simp [voiceAt, h, this]

@[simp] theorem voiceAt_clearVoices (n : BitVec 7) (s : State) : voiceAt (clearVoices s) n = {} := by
  simp [voiceAt]

/-- What a state has in its voice table alone. -/
theorem voiceAt_congr {s t : State} (h : t.voice = s.voice) (n : BitVec 7) : voiceAt t n = voiceAt s n := by
  simp [voiceAt, h]

/-! ### Events -/

theorem noteOffOp_voiceAt (n m : BitVec 7) (s : State) :
    voiceAt (noteOffOp n s) m =
      if m = n ∧ (voiceAt s n).active then { active := false, loud := ZERO } else voiceAt s m := by
  unfold noteOffOp
  by_cases ha : (voiceAt s n).active <;> simp [ha, voiceAt_setVoice]

/-- An event changes the voice table and nothing else. -/
theorem applyEvent_frame (s : State) (e : Event) : applyEvent s e = { s with voice := (applyEvent s e).voice } := by
  cases e with
  | on n v => rfl
  | off n v => simp only [applyEvent, noteOffOp]; split <;> rfl

/-- A run of events changes the voice table and nothing else. -/
theorem foldl_applyEvent_frame (l : List Event) (s : State) :
    l.foldl applyEvent s = { s with voice := (l.foldl applyEvent s).voice } := by
  induction l generalizing s with
  | nil => rfl
  | cons e l ih =>
    have key : ∀ v : Vector Voice 128, { applyEvent s e with voice := v } = { s with voice := v } := fun v => by
      rw [applyEvent_frame s e]
    exact (ih (applyEvent s e)).trans (key _)

/-- The drain empties the FIFO, changes the voice table and nothing else. -/
theorem drain_frame (s : State) : drain s = { s with voice := (drain s).voice, fifo := [] } :=
  foldl_applyEvent_frame s.fifo (clearFifo s)

/-- A property of the single voices that every event keeps is kept by the drain. -/
theorem drain_voices {P : BitVec 7 → Voice → Prop} {s : State} (h : ∀ n, P n (voiceAt s n))
    (hon : ∀ n v, P n { active := true, loud := loudRom v }) (hoff : ∀ n, P n { active := false, loud := ZERO }) :
    ∀ n, P n (voiceAt (drain s) n) := by
  suffices ∀ (l : List Event) (u : State), (∀ n, P n (voiceAt u n)) → ∀ n, P n (voiceAt (l.foldl applyEvent u) n) from
    this s.fifo (clearFifo s) h
  intro l
  induction l with
  | nil => exact fun u hu => hu
  | cons e l ih =>
    refine fun u hu => ih (applyEvent u e) fun m => ?_
    cases e with
    | on n v =>
      simp only [applyEvent, noteOnOp, voiceAt_setVoice]
      split
      · exact ‹m = n› ▸ hon _ _
      · exact hu m
    | off n v =>
      simp only [applyEvent, noteOffOp_voiceAt]
      split
      · exact (‹m = n ∧ _›.1) ▸ hoff _
      · exact hu m

/-- What a push can do: nothing but set EVTERR or EVQOVF, or add one entry. -/
theorem pushWord_cases (w : Word) (s : State) :
    pushWord w s = raise .evterr s ∨ (s.fifo.length = s.par.evqDepth ∧ pushWord w s = raise .evqovf s) ∨
      (s.fifo.length ≠ s.par.evqDepth ∧ ∃ e, pushWord w s = pushTail e s) := by
  have key : ∀ e, enqueue e s = (if s.fifo.length = s.par.evqDepth then raise .evqovf s else pushTail e s) := fun _ => rfl
  unfold pushWord
  split
  · rw [key]; split
    · exact .inr (.inl ⟨‹_›, rfl⟩)
    · exact .inr (.inr ⟨‹_›, _, rfl⟩)
  · rw [key]; split
    · exact .inr (.inl ⟨‹_›, rfl⟩)
    · exact .inr (.inr ⟨‹_›, _, rfl⟩)
  · exact .inl rfl

/-! ### The frame -/

/-- What follows the mixed sample writes FSTATE, OUT, CLK, FRAMECNT, the datapath and the output port, and nothing else. -/
theorem finishFrame_frame (s : State) :
    finishFrame s =
      { s with
        fstate := (finishFrame s).fstate, out := (finishFrame s).out, clk := (finishFrame s).clk
        framecnt := s.framecnt + 1#32, dp := (finishFrame s).dp, outValid := true } := by
  unfold finishFrame countStage clockStage clampStage filterStage filterStep volumeStage returns
  split <;> split <;> rfl

/-- The sample of a MIX frame writes the FIFO, MIXOUT and the datapath. -/
theorem mixStage_frame (s : State) :
    mixStage s = { s with fifo := [], mixout := (mixStage s).mixout, dp := (mixStage s).mixout } := rfl

/-- The sample of an FM frame writes the FIFO, DEGCNT, STATUS.DEGEN, MIXOUT and the datapath. -/
theorem fmStage_frame (s : State) :
    fmStage s =
      { s with
        fifo := [], degcnt := (fmStage s).degcnt
        status := { s.status with degen := (fmStage s).status.degen }
        mixout := (fmStage s).mixout, dp := (fmStage s).mixout } := by
  unfold fmStage noteDegeneracy
  split <;> rfl

/-- The sample of a POLY frame writes the FIFO, the voice table, LOUDSUM, CLK, MIXOUT and the datapath. -/
theorem polyStage_frame (s : State) :
    polyStage s =
      { s with
        fifo := [], voice := (drain s).voice, loudsum := (polyStage s).loudsum, clk := (polyStage s).clk
        mixout := (polyStage s).mixout, dp := (polyStage s).mixout } := by
  unfold polyStage voiceStage
  rw [drain_frame s]
  split <;> rfl

/-- A frame answers a next state exactly in the modes 0 to 2. -/
theorem frame_eq_next {s t : State} :
    frame s = .next t ↔
      (ctrlMode s.ctrl = 0#2 ∧ t = finishFrame (mixStage s)) ∨ (ctrlMode s.ctrl = 1#2 ∧ t = finishFrame (fmStage s)) ∨
        (ctrlMode s.ctrl = 2#2 ∧ t = finishFrame (polyStage s)) := by
  have cases4 : ∀ m : BitVec 2, m = 0#2 ∨ m = 1#2 ∨ m = 2#2 ∨ m = 3#2 := by decide
  unfold frame modeStage
  rcases cases4 (ctrlMode s.ctrl) with h | h | h | h <;> simp [h, eq_comm]

/-- The frame tick (R200). -/
theorem frameTick_stopped {s : State} (h : s.status.run = false) : frameTick s = .next s := by
  simp [frameTick, h]

theorem frameTick_running {s : State} (h : s.status.run = true) : frameTick s = frame s := by
  simp [frameTick, h]

/-! ### Commands -/

/-- The session constants and the results START writes. -/
theorem startSession_frame (s : State) :
    startSession s =
      { s with
        fifo := [], voice := Vector.replicate 128 {}, clk := ZERO, fstate := ZERO, mixout := ZERO, out := ZERO
        loudsum := ZERO, framecnt := 0#32, alpha := (startSession s).alpha, cperiod := (startSession s).cperiod
        peak := (startSession s).peak, status := { s.status with run := true } } := by
  unfold startSession constantsStage alphaStage peakStage deriveAlpha clearSession
  split <;> split <;> rfl

/-- START has three outcomes (R221). -/
theorem startOp_cases (s : State) :
    (s.status.run = true ∧ startOp s = raise .cmderr s) ∨
      (s.status.run = false ∧ ∃ e, validate s = some e ∧ startOp s = startFailed e.code e.slot s) ∨
      (s.status.run = false ∧ validate s = none ∧ startOp s = startSession s) := by
  unfold startOp
  cases hr : s.status.run
  · cases hv : validate s with
    | none => exact .inr (.inr ⟨rfl, rfl, by simp⟩)
    | some e => exact .inr (.inl ⟨rfl, e, rfl, by simp⟩)
  · exact .inl ⟨rfl, by simp⟩

/-! ### The bus -/

/-- A register write raises ACCERR, raises LOCKERR, or stores. -/
theorem writeReg_cases (r : Reg) (w : Word) (s : State) :
    (r.readOnly = true ∧ writeReg r w s = raise .accerr s) ∨
      (r.locked = true ∧ s.status.run = true ∧ writeReg r w s = raise .lockerr s) ∨
      (r.readOnly = false ∧ (r.locked = false ∨ s.status.run = false) ∧ writeReg r w s = storeReg r w s) := by
  unfold writeReg
  cases r.readOnly <;> cases r.locked <;> cases s.status.run <;> simp

/-! ### The step -/

/-- A request is a change of `rst`, is held in reset, is an operation of the table, or is a plain access. -/
theorem perform_cases (i : Input) (s : State) :
    (∃ l, i = .rst l ∧ perform i s = .next (setRst l s)) ∨
      (s.rst = true ∧ perform i s = .next (heldInReset i s)) ∨
      (s.rst = false ∧ ∃ op, requestInstr i = some op ∧ perform i s = exec op s) ∨
      (s.rst = false ∧ requestInstr i = none ∧ perform i s = .next (plainAccess i s)) := by
  cases i with
  | rst l => exact .inl ⟨l, rfl, rfl⟩
  | _ =>
    all_goals
      cases hr : s.rst with
      | true => exact .inr (.inl ⟨rfl, by simp [perform, hr]⟩)
      | false =>
        cases hq : requestInstr _ with
        | some op => exact .inr (.inr (.inl ⟨rfl, op, rfl, by simp [perform, hr, hq]⟩))
        | none => exact .inr (.inr (.inr ⟨rfl, rfl, by simp [perform, hr, hq]⟩))

/-- A step ends the pulses on the ports, or performs the oldest request. -/
theorem step_cases (s : State) :
    (s.pending = [] ∧ step s = .next (restPorts s)) ∨
      ∃ i rest, s.pending = i :: rest ∧ step s = perform i (takeRequest rest s) := by
  unfold step
  split
  · exact .inl ⟨‹_›, rfl⟩
  · exact .inr ⟨_, _, ‹_›, rfl⟩

/-- The operations of the table that a request can be. -/
theorem requestInstr_cases {i : Input} {op : Instr} (h : requestInstr i = some op) :
    op = .frame ∨ (∃ w, op = .push w) ∨ (∃ w, op = decodeCmd w ∧ i = .write 0x010#12 2#2 w) := by
  cases i with
  | write o z w =>
    simp only [requestInstr] at h
    split at h
    · obtain ⟨rfl, rfl⟩ := ‹z = 2#2 ∧ o = 0x010#12›
      exact .inr (.inr ⟨w, (Option.some.inj h).symm, rfl⟩)
    · split at h
      · exact .inr (.inl ⟨w, (Option.some.inj h).symm⟩)
      · exact absurd h (by simp)
  | evtPush w => exact .inr (.inl ⟨w, (Option.some.inj h).symm⟩)
  | tick => exact .inl (Option.some.inj h).symm
  | read o z => exact absurd h (by simp [requestInstr])
  | rst l => exact absurd h (by simp [requestInstr])

/-- A word on CMD decodes to one of the six commands or is reserved (R107). -/
theorem decodeCmd_cases (w : Word) :
    decodeCmd w = .start ∨ decodeCmd w = .stop ∨ decodeCmd w = .tick ∨ decodeCmd w = .flush ∨ decodeCmd w = .clrcnt ∨
      decodeCmd w = .softreset ∨ decodeCmd w = .cmdReserved w := by
  unfold decodeCmd
  split <;> simp

end Sys2Proof.Machine
end

