-- ==== Sys2Proof/Laws/PerInstr.lean ====
section
/-! SUPPORT. The family Encoding: the encoder's word of each operation has the fixed bits of its row of spec/opcode_table.json. -/

namespace Sys2Proof.Laws.Encoding

/-- The bits of a word as the table numbers them: a KIND row numbers the code in the register's KIND field from 0. -/
def tableBits : Site × Word → Word
  | (.kind loc _, w) => (kindField loc w).setWidth 32
  | (_, w) => w

/-- The mask and the match of an operation's row. -/
def row : Instr → Word × Word
  | .start => (0xFFFFFFFF#32, 0x00000001#32)
  | .stop => (0xFFFFFFFF#32, 0x00000002#32)
  | .tick => (0xFFFFFFFF#32, 0x00000003#32)
  | .flush => (0xFFFFFFFF#32, 0x00000004#32)
  | .clrcnt => (0xFFFFFFFF#32, 0x00000005#32)
  | .softreset => (0xFFFFFFFF#32, 0x00000006#32)
  | .cmdReserved _ => (0x00000000#32, 0x00000000#32)
  | .noteOn _ _ => (0x00030000#32, 0x00010000#32)
  | .noteOff _ _ => (0x00030000#32, 0x00020000#32)
  | .evtReservedType0 => (0x00030000#32, 0x00000000#32)
  | .evtReservedType3 => (0x00030000#32, 0x00030000#32)
  | .silence _ => (0x00000007#32, 0x00000000#32)
  | .sine _ => (0x00000007#32, 0x00000001#32)
  | .square _ => (0x00000007#32, 0x00000002#32)
  | .sawtooth _ => (0x00000007#32, 0x00000003#32)
  | .triangle _ => (0x00000007#32, 0x00000004#32)
  | .onoff _ => (0x00000007#32, 0x00000005#32)
  | .kindReserved6 _ => (0x00000007#32, 0x00000006#32)
  | .kindReserved7 _ => (0x00000007#32, 0x00000007#32)
  | .modeMix => (0x00000003#32, 0x00000000#32)
  | .modeFm => (0x00000003#32, 0x00000001#32)
  | .modePoly => (0x00000003#32, 0x00000002#32)
  | .modeReserved3 => (0x00000003#32, 0x00000003#32)
  | .peakFast => (0x00000010#32, 0x00000000#32)
  | .peakExact => (0x00000010#32, 0x00000010#32)
  | .filterBypass => (0x00000004#32, 0x00000000#32)
  | .filterUpdate => (0x00000004#32, 0x00000004#32)
  | .alphaDirect => (0x0000000C#32, 0x00000004#32)
  | .alphaDerive => (0x0000000C#32, 0x0000000C#32)
  | .frame => (0x00000000#32, 0x00000000#32)
  | .push _ => (0x00000000#32, 0x00000000#32)

/-- The word the encoder gives has the row's fixed bits. -/
def Statement (i : Instr) : Prop := tableBits (encode i) &&& (row i).1 = (row i).2

theorem start : Statement .start := rfl
theorem stop : Statement .stop := rfl
theorem tick : Statement .tick := rfl
theorem flush : Statement .flush := rfl
theorem clrcnt : Statement .clrcnt := rfl
theorem softreset : Statement .softreset := rfl
theorem cmdReserved (w : Word) : Statement (.cmdReserved w) := BitVec.and_zero

/-- TYPE in an EVT word. -/
theorem evtWord_type (ty : BitVec 2) (note vel : BitVec 7) :
    evtWord ty note vel &&& 0x00030000#32 = ty.setWidth 32 <<< 16 := by
  apply BitVec.eq_of_getLsbD_eq
  intro k hk
  rw [BitVec.getLsbD_and, evtWord]
  simp only [BitVec.getLsbD_append]
  interval_cases k <;> simp

theorem noteOn (note vel : BitVec 7) : Statement (.noteOn note vel) := evtWord_type 1#2 note vel
theorem noteOff (note vel : BitVec 7) : Statement (.noteOff note vel) := evtWord_type 2#2 note vel
theorem evtReservedType0 : Statement .evtReservedType0 := rfl
theorem evtReservedType3 : Statement .evtReservedType3 := rfl
theorem silence (a : OscArgs) : Statement (.silence a) := by
  simp [Statement, tableBits, encode, row, kindField, kindWord]
theorem sine (a : OscArgs) : Statement (.sine a) := by
  simp [Statement, tableBits, encode, row, kindField, kindWord]
theorem square (a : OscArgs) : Statement (.square a) := by
  simp [Statement, tableBits, encode, row, kindField, kindWord]
theorem sawtooth (a : OscArgs) : Statement (.sawtooth a) := by
  simp [Statement, tableBits, encode, row, kindField, kindWord]
theorem triangle (a : OscArgs) : Statement (.triangle a) := by
  simp [Statement, tableBits, encode, row, kindField, kindWord]
theorem onoff (a : OscArgs) : Statement (.onoff a) := by
  simp [Statement, tableBits, encode, row, kindField, kindWord]
theorem kindReserved6 (loc : KindLoc) : Statement (.kindReserved6 loc) := by
  cases loc <;> simp [Statement, tableBits, encode, row, kindField, kindWord]
theorem kindReserved7 (loc : KindLoc) : Statement (.kindReserved7 loc) := by
  cases loc <;> simp [Statement, tableBits, encode, row, kindField, kindWord]
theorem modeMix : Statement .modeMix := rfl
theorem modeFm : Statement .modeFm := rfl
theorem modePoly : Statement .modePoly := rfl
theorem modeReserved3 : Statement .modeReserved3 := rfl
theorem peakFast : Statement .peakFast := rfl
theorem peakExact : Statement .peakExact := rfl
theorem filterBypass : Statement .filterBypass := rfl
theorem filterUpdate : Statement .filterUpdate := rfl
theorem alphaDirect : Statement .alphaDirect := rfl
theorem alphaDerive : Statement .alphaDerive := rfl
theorem frame : Statement .frame := rfl
theorem push (w : Word) : Statement (.push w) := BitVec.and_zero

end Sys2Proof.Laws.Encoding
end

