-- ==== Sys2Proof/Machine/HostProgram.lean ====
section
/-! DEFINITION. The host's program notation (30_encoding.md R110) and its pseudo-operations (R111), as the requests they stand
for. A program is data for `State.pending`; nothing in the machine depends on it. -/

namespace Sys2Proof.Machine

/-- The commands by name (R102). -/
inductive Command where
  | start
  | stop
  | tick
  | flush
  | clrcnt
  | softreset
deriving DecidableEq, Repr

/-- The command as an operation of the table. -/
def Command.instr : Command → Instr
  | .start => .start
  | .stop => .stop
  | .tick => .tick
  | .flush => .flush
  | .clrcnt => .clrcnt
  | .softreset => .softreset

/-- One line of a host program (R110, R111). A value `f:<decimal>` is `ofRatio` of the decimal. START, STOP, FLUSH, CLRCNT
and SOFTRESET alone are `CMD` of the same name. -/
inductive HostOp where
  | wr (r : Reg) (v : Word)
  | rd (r : Reg)
  | cmd (c : Command)
  | evtOn (note vel : BitVec 7)
  | evtOff (note : BitVec 7)
  | pushOn (note vel : BitVec 7)
  | pushOff (note : BitVec 7)
  | ticks (k : Nat)
  | setOsc (i : Nat) (kind : BitVec 3) (freq depth : F32)
  | clrStat
  | setCtrl (mode : BitVec 2) (fen acalc pstrat : Bool) (vkind : BitVec 3)
deriving DecidableEq, Repr

/-- `WR <reg>, <value>` (R110). -/
def wordWrite (r : Reg) (v : Word) : Input := .write r.offset 2#2 v

/-- `(k << 5) | (c << 4) | (b << 3) | (a << 2) | m` (R111). -/
def ctrlWord (mode : BitVec 2) (fen acalc pstrat : Bool) (vkind : BitVec 3) : Word :=
  (vkind ++ BitVec.ofBool pstrat ++ BitVec.ofBool acalc ++ BitVec.ofBool fen ++ mode : BitVec 8).setWidth 32

/-- The requests of one line. -/
def HostOp.inputs : HostOp → List Input
  | .wr r v => [wordWrite r v]
  | .rd r => [.read r.offset 2#2]
  | .cmd c => [wordWrite .cmd (encode c.instr).2]
  | .evtOn n v => [wordWrite .evt (evtWord 1#2 n v)]
  | .evtOff n => [wordWrite .evt (evtWord 2#2 n 0#7)]
  | .pushOn n v => [.evtPush (evtWord 1#2 n v)]
  | .pushOff n => [.evtPush (evtWord 2#2 n 0#7)]
  | .ticks k => List.replicate k .tick
  | .setOsc i kind freq depth =>
    [wordWrite (.oscKind i) (kind.setWidth 32), wordWrite (.oscFreq i) freq, wordWrite (.oscDepth i) depth]
  | .clrStat => [wordWrite .status 0x00007F00#32]
  | .setCtrl m a b c k => [wordWrite .ctrl (ctrlWord m a b c k)]

/-- The requests of a program, in the order the host issues them (20_memory.md R72). -/
def programInputs (p : List HostOp) : List Input := p.flatMap HostOp.inputs

end Sys2Proof.Machine
end

