-- ==== Sys2Proof/Tests/Slice0.lean ====
section
/-! SUPPORT. Tests. Expected values are the spec's own examples (the rule is named) or written out from its tables; the theorems
named witness_ show that the hypotheses of the statement they name can be met, at the ends of their ranges. -/

set_option Elab.async false

namespace Sys2Proof.Tests

open Sys2Proof.Machine

/-! ### Decoding -/

/-- R102, R107. -/
theorem test_decode_cmd :
    decodeLanes .cmd [0x01#8, 0#8, 0#8, 0#8] = .ok .start ∧ decodeLanes .cmd [0x02#8, 0#8, 0#8, 0#8] = .ok .stop ∧
    decodeLanes .cmd [0x03#8, 0#8, 0#8, 0#8] = .ok .tick ∧ decodeLanes .cmd [0x04#8, 0#8, 0#8, 0#8] = .ok .flush ∧
    decodeLanes .cmd [0x05#8, 0#8, 0#8, 0#8] = .ok .clrcnt ∧ decodeLanes .cmd [0x06#8, 0#8, 0#8, 0#8] = .ok .softreset ∧
    decodeLanes .cmd [0x07#8, 0#8, 0#8, 0#8] = .ok (.cmdReserved 0x00000007#32) ∧
    decodeLanes .cmd [0x01#8, 0#8, 0#8, 0x80#8] = .ok (.cmdReserved 0x80000001#32) := by decide

/-- R103, R104: the example of R177, and a word with every ignored bit set. -/
theorem test_decode_evt :
    decodeLanes .evt [0x3C#8, 0x7F#8, 0x01#8, 0x00#8] = .ok (.noteOn 60#7 127#7) ∧
    decodeLanes .evt [0x80#8, 0x81#8, 0xFE#8, 0xFF#8] = .ok (.noteOff 0#7 1#7) ∧
    decodeLanes .evt [0x3C#8, 0x7F#8, 0xFC#8, 0xFF#8] = .ok .evtReservedType0 ∧
    decodeLanes .evt [0x00#8, 0x00#8, 0x03#8, 0x00#8] = .ok .evtReservedType3 ∧
    decodeLanes .evtPort [0x3C#8, 0x7F#8, 0x01#8, 0x00#8] = .ok (.push 0x00017F3C#32) ∧
    decodeLanes .tickPort [0#8, 0#8, 0#8, 0#8] = .ok .frame := by decide

/-- R97, in a slot and in VKIND. -/
theorem test_decode_kind :
    decodeLanes (.kind (.slot 0) tableArgs) [0x00#8, 0#8, 0#8, 0#8] = .ok (.silence tableArgs) ∧
    decodeLanes (.kind (.slot 0) tableArgs) [0x01#8, 0#8, 0#8, 0#8] = .ok (.sine tableArgs) ∧
    decodeLanes (.kind (.slot 0) tableArgs) [0x02#8, 0#8, 0#8, 0#8] = .ok (.square tableArgs) ∧
    decodeLanes (.kind (.slot 0) tableArgs) [0xFB#8, 0xFF#8, 0#8, 0#8] = .ok (.sawtooth tableArgs) ∧
    decodeLanes (.kind (.slot 0) tableArgs) [0x04#8, 0#8, 0#8, 0#8] = .ok (.triangle tableArgs) ∧
    decodeLanes (.kind .vkind tableArgs) [0xA2#8, 0#8, 0#8, 0#8] = .ok (.onoff tableArgs) ∧
    decodeLanes (.kind (.slot 3) tableArgs) [0x06#8, 0#8, 0#8, 0#8] = .ok (.kindReserved6 (.slot 3)) ∧
    decodeLanes (.kind .vkind tableArgs) [0xE2#8, 0#8, 0#8, 0#8] = .ok (.kindReserved7 .vkind) := by decide

/-- R92, R98, R99. -/
theorem test_decode_ctrl :
    decodeLanes .mode [0xFC#8, 0#8, 0#8, 0#8] = .ok .modeMix ∧ decodeLanes .mode [0x01#8, 0#8, 0#8, 0#8] = .ok .modeFm ∧
    decodeLanes .mode [0x02#8, 0#8, 0#8, 0#8] = .ok .modePoly ∧
    decodeLanes .mode [0x03#8, 0#8, 0#8, 0#8] = .ok .modeReserved3 ∧
    decodeLanes .pstrat [0xEF#8, 0#8, 0#8, 0#8] = .ok .peakFast ∧
    decodeLanes .pstrat [0x10#8, 0#8, 0#8, 0#8] = .ok .peakExact ∧
    decodeLanes .filter [0xFB#8, 0#8, 0#8, 0#8] = .ok .filterBypass ∧
    decodeLanes .filter [0x04#8, 0#8, 0#8, 0#8] = .ok .filterUpdate ∧
    decodeLanes .alpha [0x04#8, 0#8, 0#8, 0#8] = .ok .alphaDirect ∧
    decodeLanes .alpha [0x0C#8, 0#8, 0#8, 0#8] = .ok .alphaDerive ∧
    decodeLanes .alpha [0x08#8, 0#8, 0#8, 0#8] = .error .filterDisabled ∧
    decodeLanes .cmd [0x01#8] = .error .notFourLanes := by decide

theorem test_decode_table_words :
    decodeTableWord 32 0x00000003 = some .tick ∧ decodeTableWord 24 0x017F3C = some (.noteOn 60#7 127#7) ∧
    decodeTableWord 8 0x03 = some (.sawtooth tableArgs) ∧ decodeTableWord 8 0x0C = some .alphaDerive ∧
    decodeTableWord 8 0x10 = some .peakExact ∧ decodeTableWord 0 0 = some .frame := by decide

/-! ### Well-formedness: each check refuses an ill-formed term -/

theorem test_wf_refuses_commands : Instr.wf (.cmdReserved 0x00000001#32) = false ∧ Instr.wf (.cmdReserved 0x00000006#32) = false ∧
    Instr.wf (.cmdReserved 0x00000000#32) = true ∧ Instr.wf (.cmdReserved 0x00000007#32) = true := by decide

theorem test_wf_refuses_slots : Instr.wf (.kindReserved6 (.slot 16)) = false ∧ Instr.wf (.kindReserved7 (.slot 16)) = false ∧
    Instr.wf (.kindReserved7 (.slot 15)) = true ∧ Instr.wf (.kindReserved6 .vkind) = true := by decide

/-- R121: the position -0.0, 0.5 and 2^24 + 2; the rate 0 and 0.5; the frequency 0, -0.0, infinite and NaN. -/
theorem test_wf_refuses_operands :
    Instr.wf (.sine ⟨0x80000000#32, 0x473B8000#32, 0x43DC0000#32⟩) = false ∧
    Instr.wf (.square ⟨0x3F000000#32, 0x473B8000#32, 0x43DC0000#32⟩) = false ∧
    Instr.wf (.sawtooth ⟨0x4B800001#32, 0x473B8000#32, 0x43DC0000#32⟩) = false ∧
    Instr.wf (.triangle ⟨0x00000000#32, 0x00000000#32, 0x43DC0000#32⟩) = false ∧
    Instr.wf (.onoff ⟨0x00000000#32, 0x3F000000#32, 0x43DC0000#32⟩) = false ∧
    Instr.wf (.sine ⟨0x00000000#32, 0x473B8000#32, 0x00000000#32⟩) = false ∧
    Instr.wf (.sine ⟨0x00000000#32, 0x473B8000#32, 0x80000000#32⟩) = false ∧
    Instr.wf (.sine ⟨0x00000000#32, 0x473B8000#32, 0x7F800000#32⟩) = false ∧
    Instr.wf (.sine ⟨0x00000000#32, 0x473B8000#32, 0x7FC00000#32⟩) = false ∧
    Instr.wf (.sine ⟨0x4B800000#32, 0x4B800000#32, 0x00000001#32⟩) = true := by decide +kernel

/-! ### States -/

/-- The state a meaning answers, for a test of one of its fields. -/
def after (r : Result) : State :=
  match r with
  | .next s => s
  | _ => State.reset

/-- The next state, if a step answers one. -/
def nextOf (r : Result) : Option State :=
  match r with
  | .next s => some s
  | _ => none

/-- The state after reset with other slots. -/
def withSlots (l : List OscSlot) : State := { State.reset with osc := l }

/-- (Sine, 100) and (Sine, 300), FAST (R158). -/
def mixSession : State := startSession (withSlots [⟨1#3, 0x42C80000#32, 0#32⟩, ⟨1#3, 0x43960000#32, 0#32⟩])

/-- Carrier (Sine, 440), modulator (Sine, 5, depth 10) (R168 set A). -/
def fmSession : State :=
  startSession { withSlots [⟨1#3, 0x43DC0000#32, 0#32⟩, ⟨1#3, 0x40A00000#32, 0x41200000#32⟩] with ctrl := 0x01#8 }

/-- VKIND Sine, notes 60 and 64 at velocity 127 (R182). -/
def polySession : State :=
  noteOnOp 64#7 127#7 (noteOnOp 60#7 127#7 (startSession { State.reset with ctrl := 0x22#8 }))

/-- A POLY session without a voice. -/
def quietSession : State := startSession { State.reset with ctrl := 0x26#8 }

/-! ### One step of each meaning -/

/-- Operands at 48000 samples per second and 100 Hz. -/
def at100 (pos : F32) : OscArgs := ⟨pos, 0x473B8000#32, 0x42C80000#32⟩

/-- R126 to R131, at the positions 12, 60, 239, 240, 241 and 1 of their examples. -/
theorem test_waveforms :
    (after (exec (.silence ⟨0x41400000#32, 0x473B8000#32, 0x00000000#32⟩) State.reset)).dp = 0x00000000#32 ∧
    (after (exec (.sine (at100 0x42700000#32)) State.reset)).dp = 0x3F3504F3#32 ∧
    (after (exec (.square (at100 0x436F0000#32)) State.reset)).dp = 0x3F800000#32 ∧
    (after (exec (.square (at100 0x43700000#32)) State.reset)).dp = 0xBF800000#32 ∧
    (after (exec (.sawtooth (at100 0x43710000#32)) State.reset)).dp = 0xBB888900#32 ∧
    (after (exec (.triangle (at100 0x3F800000#32)) State.reset)).dp = 0xBF7DDDDE#32 ∧
    (after (exec (.triangle (at100 0x43710000#32)) State.reset)).dp = 0x3F7DDDDC#32 ∧
    (after (exec (.onoff (at100 0x43700000#32)) State.reset)).dp = 0x00000000#32 := by decide +kernel

/-- R135 and R136: an aliased and a fractional period. -/
theorem test_waveforms_fractional :
    (after (exec (.sawtooth ⟨0x40A00000#32, 0x473B8000#32, 0x476A6000#32⟩) State.reset)).dp = 0x3F000003#32 ∧
    (after (exec (.sine ⟨0x42DC0000#32, 0x473B8000#32, 0x43DC0000#32⟩) State.reset)).dp = 0x3D565E0F#32 := by decide +kernel

/-- R221: START right after reset. -/
theorem test_start_after_reset :
    statusWord (after (exec .start State.reset)) = 0x00000003#32 ∧ (after (exec .start State.reset)).cperiod = 1#32 ∧
    (after (exec .start State.reset)).peak = 0x00000000#32 := by decide +kernel

/-- R231 (a), (b), (c) and (d). -/
theorem test_start_refused :
    (after (exec .start { State.reset with srate := 0#32 })).errcode = 0x00000002#32 ∧
    statusWord (after (exec .start { State.reset with srate := 0#32 })) = 0x00000102#32 ∧
    (after (exec .start (withSlots [⟨0#3, 0#32, 0#32⟩, ⟨0#3, 0#32, 0#32⟩, ⟨1#3, 0#32, 0#32⟩]))).errcode = 0x00000205#32 ∧
    (after (exec .start { State.reset with ctrl := 0xE2#8 })).errcode = 0x0000FF04#32 ∧
    nextOf (exec .start mixSession) = some (raise .cmderr mixSession) := by decide +kernel

/-- R269 (b), (c), (d), (e) and (a). -/
theorem test_start_validation :
    (after (exec .start { withSlots [⟨1#3, 0x43DC0000#32, 0#32⟩, ⟨0#3, 0#32, 0x7F800000#32⟩] with
      ctrl := 0x01#8 })).errcode = 0x00000106#32 ∧
    (after (exec .start { State.reset with ctrl := 0x0C#8, cutoff := 0x46BB8000#32 })).errcode = 0x00000007#32 ∧
    (after (exec .start { State.reset with ctrl := 0x0C#8, cutoff := 0x46BB7E00#32 })).alpha = 0x3E773D75#32 ∧
    (after (exec .start { State.reset with ctrl := 0x04#8, alpha := 0x3FC00000#32 })).errcode = 0x00000008#32 ∧
    (after (exec .start { State.reset with volume := 0x7FC00000#32 })).errcode = 0x00000009#32 ∧
    (after (exec .start { State.reset with srate := 0x01000001#32 })).errcode = 0x00000002#32 := by decide +kernel

/-- R224 to R228: the examples. -/
theorem test_commands :
    (after (exec .stop mixSession)).status.run = false ∧ (after (exec .stop mixSession)).clk = mixSession.clk ∧
    nextOf (exec .tick State.reset) = some State.reset ∧
    (after (exec .tick quietSession)).framecnt = 1#32 ∧ (after (exec .tick quietSession)).clk = 0x00000000#32 ∧
    (after (exec .flush { State.reset with fifo := [.on 1#7 2#7] })).fifo = [] ∧
    (after (exec .clrcnt { State.reset with degcnt := 24000#32 })).degcnt = 0#32 ∧
    (after (exec (.cmdReserved 0x00000101#32) State.reset)).status.cmderr = true := by decide +kernel

/-- R229: the example, from a running session. -/
theorem test_softreset : nextOf (exec .softreset mixSession) = some (State.resetWith Params.default 2 false []) := by decide +kernel

/-- R178 and R179: the examples. -/
theorem test_note_events :
    voiceAt (after (exec (.noteOn 64#7 100#7) State.reset)) 64#7 = ⟨true, 0x3F1EB866#32⟩ ∧
    (readReg (after (exec (.noteOn 64#7 100#7) State.reset)) (.vact 2)) = 0x00000001#32 ∧
    nvoice (after (exec (.noteOff 60#7 0#7) (noteOnOp 60#7 127#7 State.reset))) = 0 ∧
    nextOf (exec (.noteOff 60#7 0#7) State.reset) = some State.reset := by decide +kernel

/-- R177: the example; R269 (h). -/
theorem test_push :
    readReg (after (exec (.push 0x00017F3C#32) State.reset)) .evqcnt = 1#32 ∧
    evqe (after (exec (.push 0x00017F3C#32) State.reset)) = false ∧
    nextOf (exec (.push 0x00000000#32) State.reset) = some (raise .evterr State.reset) ∧
    nextOf (exec .evtReservedType3 State.reset) = some (raise .evterr State.reset) := by decide +kernel

/-- R25: the slot of a reserved KIND; R252: a reserved MODE. -/
theorem test_reserved_codes :
    (after (exec (.kindReserved6 (.slot 7)) State.reset)).errcode = 0x00000704#32 ∧
    (after (exec (.kindReserved7 .vkind) State.reset)).errcode = 0x0000FF04#32 ∧
    (after (exec .modeReserved3 State.reset)).errcode = 0x00000001#32 := by decide

/-- R153: position 47 with the exact peak. -/
theorem test_mode_mix :
    (after (exec .modeMix { mixSession with clk := 0x423C0000#32, peak := 0x3FC511A1#32 })).mixout = 0x3F800000#32 := by
  decide +kernel

/-- R163: the example; R168 set D at CLK = 0. -/
theorem test_mode_fm :
    (after (exec .modeFm { fmSession with clk := 0x3F800000#32 })).mixout = 0x3D6BC928#32 ∧
    (after (exec .modeFm { fmSession with
      osc := [⟨1#3, 0x42C80000#32, 0#32⟩, ⟨2#3, 0x3F800000#32, 0x7F61B1E6#32⟩, ⟨2#3, 0x3F800000#32, 0x7F61B1E6#32⟩],
      degcnt := 0xFFFFFFFF#32 })).degcnt = 0xFFFFFFFF#32 := by decide +kernel

/-- R182: the example; R187 (a). -/
theorem test_mode_poly :
    (after (exec .modePoly { polySession with clk := 0x3F800000#32 })).mixout = 0x3D1E76AA#32 ∧
    (after (exec .modePoly { polySession with clk := 0x3F800000#32 })).loudsum = 0x40000000#32 ∧
    (after (exec .modePoly { quietSession with fifo := [.on 60#7 127#7, .off 60#7 0#7] })).mixout = 0x00000000#32 := by
  decide +kernel

/-- R150: three Sine slots; R158: (Square, 16000) repeats after 3 positions with peak 1. -/
theorem test_peaks :
    (after (exec .peakFast (withSlots [⟨1#3, 0#32, 0#32⟩, ⟨1#3, 0#32, 0#32⟩, ⟨0#3, 0#32, 0#32⟩, ⟨1#3, 0#32, 0#32⟩]))).peak
      = 0x40400000#32 ∧
    (after (exec .peakExact { withSlots [⟨2#3, 0x467A0000#32, 0#32⟩] with cperiod := 3#32 })).peak = 0x3F800000#32 := by
  decide +kernel

/-- R146: (Sine, 440) with (Square, 660), and (Sine, 7) with (Sine, 11) capped. -/
theorem test_combined_period :
    combinedPeriod (withSlots [⟨1#3, 0x43DC0000#32, 0#32⟩, ⟨2#3, 0x44250000#32, 0#32⟩]) = 8030 ∧
    combinedPeriod (withSlots [⟨1#3, 0x40E00000#32, 0#32⟩, ⟨1#3, 0x41300000#32, 0#32⟩]) = 48000 ∧
    combinedPeriod (withSlots [⟨1#3, 0x000116C2#32, 0#32⟩]) = 48000 := by decide +kernel

/-- R197 (b) and R198: ALPHA 1 and ALPHA 0. -/
theorem test_filter_update :
    (after (exec .filterUpdate { State.reset with fstate := 0x3E800000#32, dp := 0x3F000000#32 })).dp = 0x3F000000#32 ∧
    (after (exec .filterUpdate { State.reset with fstate := 0x3E800000#32, dp := 0x80000000#32 })).fstate = 0x00000000#32 ∧
    (after (exec .filterUpdate { State.reset with alpha := 0#32, fstate := 0x3E800000#32, dp := 0x3F666666#32 })).fstate
      = 0x3E800000#32 ∧
    nextOf (exec .filterBypass State.reset) = some State.reset := by decide +kernel

/-- R198: the coefficient of 1000 Hz (R211); R252 code 0x08. -/
theorem test_filter_coefficient :
    (after (exec .alphaDerive { State.reset with cutoff := 0x447A0000#32 })).alpha = 0x3C56748B#32 ∧
    nextOf (exec .alphaDirect State.reset) = some State.reset ∧
    (after (exec .alphaDirect { State.reset with alpha := 0x3F800001#32 })).errcode = 0x00000008#32 := by decide +kernel

/-- R201: the example; R208: the wrap at 48000. -/
theorem test_frame :
    (after (exec .frame { mixSession with clk := 0x3F800000#32, peak := 0x3FC511A1#32 })).out = 0x3D0B45A0#32 ∧
    (after (exec .frame { mixSession with clk := 0x3F800000#32, peak := 0x3FC511A1#32 })).clk = 0x40000000#32 ∧
    advance 48000#32 0x473B7F00#32 = 0x00000000#32 ∧ advance 0#32 0x4B800000#32 = 0x4B800000#32 := by decide +kernel

/-- R206: a mixed sample just below -1 is clamped. -/
theorem test_clamp : clampUnit 0xBF800002#32 = 0xBF800000#32 ∧ clampUnit 0x80000000#32 = 0x80000000#32 := by decide +kernel

/-- R269 (f) and (g): a byte read, and a locked write in a session. -/
theorem test_bus :
    nextOf (perform (.read 0x00C#12 0#2) State.reset) = some { raise .accerr State.reset with rdata := some 0#32 } ∧
    nextOf (perform (.write 0x018#12 2#2 44100#32) mixSession) = some (raise .lockerr mixSession) ∧
    nextOf (perform (.read 0x004#12 2#2) State.reset) = some { State.reset with rdata := some 0x00004008#32 } := by decide +kernel

/-- R281, and the step with nothing to do. -/
theorem test_reset_line :
    nextOf (perform .tick { State.reset with rst := true }) = some { State.reset with rst := true } ∧
    nextOf (perform (.read 0x000#12 2#2) { State.reset with rst := true })
      = some { State.reset with rst := true, rdata := some 0#32 } ∧
    nextOf (step State.reset) = some State.reset := by decide +kernel

/-- R110, R111: the words of a program. -/
theorem test_program_words :
    programInputs [.evtOn 60#7 127#7, .pushOff 60#7, .setCtrl 2#2 true false false 1#3, .cmd .start, .ticks 2]
      = [.write 0x014#12 2#2 0x00017F3C#32, .evtPush 0x0002003C#32, .write 0x008#12 2#2 0x00000026#32,
         .write 0x010#12 2#2 0x00000001#32, .tick, .tick] := by decide

/-- A table word runs as the first instruction after reset: a command, an event, a waveform and a frame. -/
theorem test_fetch_word :
    nextOf (step (State.reset.withFetchWord 32 0x00000001)) = nextOf (exec .start State.reset) ∧
    (after (step (State.reset.withFetchWord 24 0x017F3C))).loudsum = 0x3F800000#32 ∧
    (after (step (State.reset.withFetchWord 8 0x02))).out = 0x3F800000#32 ∧
    (after (step (State.reset.withFetchWord 0 0))).framecnt = 1#32 := by decide +kernel

end Sys2Proof.Tests
end

