-- ==== Sys2Proof/Tests/Witnesses.lean ====
section
/-! SUPPORT. For each statement of Certificates/Slice0/Obligations.lean with hypotheses, a concrete state and operands that meet
them together, clause by clause, at the ends of the ranges where a clause has a range. -/

set_option Elab.async false

namespace Sys2Proof.Tests

open Sys2Proof.Machine

/-! ### Encoding and the window -/

theorem witness_DecodeEncodeRoundTrip :
    Instr.wf (.noteOff 127#7 127#7) = true ∧ Instr.wf (.cmdReserved 0x00000007#32) = true ∧
    Instr.wf (.cmdReserved 0xFFFFFFFF#32) = true ∧ Instr.wf (.cmdReserved 0x00000000#32) = true ∧
    Instr.wf (.kindReserved6 (.slot 15)) = true ∧ Instr.wf (.kindReserved7 .vkind) = true ∧
    Instr.wf (.sine tableArgs) = true ∧ Instr.wf (.triangle ⟨0x4B800000#32, 0x3F800000#32, 0x7F7FFFFF#32⟩) = true := by
  decide +kernel

theorem witness_RegisterMapIsOneToOne :
    Reg.inMap 16 (.oscDepth 15) = true ∧ Reg.inMap 1 (.oscKind 0) = true ∧ Reg.inMap 0 (.vact 3) = true ∧
    Reg.inMap 0 (.vloud 127) = true ∧ regAtWord 16 0x7E = some (.oscDepth 15) ∧ regAtWord 8 0x16 = some .framecnt ∧
    regAtWord 8 0x17F = some (.vloud 127) ∧ regAtWord 8 0x83 = some (.vact 3) := by decide

/-- The ends of the reserved ranges of a block with 8 slots, and the registers beside them. -/
theorem witness_ReservedAndReadOnlyAccesses :
    State.reset.rst = false ∧ 1 ≤ State.reset.osc.length ∧ State.reset.osc.length ≤ 16 ∧
    Reg.inMap State.reset.osc.length (.vloud 127) = true ∧
    reservedOffset 8 0x05C ∧ reservedOffset 8 0x0FC ∧ reservedOffset 8 0x10C ∧ reservedOffset 8 0x17C ∧
    reservedOffset 8 0x180 ∧ reservedOffset 8 0x1FC ∧ reservedOffset 8 0x210 ∧ reservedOffset 8 0x3FC ∧
    reservedOffset 8 0x600 ∧ reservedOffset 8 0xFFC ∧
    regOf State.reset 0x058#12 2#2 = some .framecnt ∧ regOf State.reset 0x100#12 2#2 = some (.oscKind 0) ∧
    regOf State.reset 0x178#12 2#2 = some (.oscDepth 7) ∧ regOf State.reset 0x200#12 2#2 = some (.vact 0) ∧
    regOf State.reset 0x20C#12 2#2 = some (.vact 3) ∧ regOf State.reset 0x400#12 2#2 = some (.vloud 0) ∧
    regOf State.reset 0x5FC#12 2#2 = some (.vloud 127) := by
  refine ⟨by decide, by decide, by decide, by decide, ?_, ?_, ?_, ?_, ?_, ?_, ?_, ?_, ?_, ?_, by decide, by decide, by decide,
    by decide, by decide, by decide, by decide⟩
  · exact .inl (by decide)
  · exact .inl (by decide)
  · exact .inr (.inl ⟨0, by decide⟩)
  · exact .inr (.inl ⟨7, by decide⟩)
  · exact .inr (.inr (.inl ⟨8, by decide⟩))
  · exact .inr (.inr (.inl ⟨15, by decide⟩))
  · exact .inr (.inr (.inr (.inl (by decide))))
  · exact .inr (.inr (.inr (.inl (by decide))))
  · exact .inr (.inr (.inr (.inr (by decide))))
  · exact .inr (.inr (.inr (.inr (by decide))))

theorem witness_SubWordAndMisalignedAccesses :
    State.reset.rst = false ∧ (0#2 : BitVec 2) ≠ 2#2 ∧ (1#2 : BitVec 2) ≠ 2#2 ∧ (3#2 : BitVec 2) ≠ 2#2 ∧
    (0x011#12).extractLsb' 0 2 ≠ 0#2 ∧ (0x012#12).extractLsb' 0 2 ≠ 0#2 ∧ (0xFFF#12).extractLsb' 0 2 ≠ 0#2 := by decide

theorem witness_LockedWrites :
    mixSession.rst = false ∧ mixSession.osc.length ≤ 16 ∧ mixSession.status.run = true ∧
    Reg.inMap mixSession.osc.length (.oscDepth 1) = true ∧
    State.reset.rst = false ∧ State.reset.osc.length ≤ 16 ∧ State.reset.status.run = false ∧
    Reg.inMap State.reset.osc.length (.oscKind 7) = true ∧ Reg.inMap State.reset.osc.length .alpha = true := by
  decide +kernel

theorem witness_WordWritesStore :
    State.reset.rst = false ∧ State.reset.osc.length ≤ 16 ∧ 7 < State.reset.osc.length ∧ State.reset.status.run = false ∧
    (withSlots (List.replicate 16 {})).osc.length ≤ 16 ∧ 15 < (withSlots (List.replicate 16 {})).osc.length := by decide

theorem witness_WordReads :
    polySession.rst = false ∧ polySession.osc.length ≤ 16 ∧ polySession.par.evqDepth ≤ 1023 ∧
    Reg.inMap polySession.osc.length (.vloud 64) = true ∧
    (readReg polySession (.vact 1)).getLsbD 28 = true ∧ (readReg polySession (.vact 2)).getLsbD 0 = true ∧
    polySession.osc[7]? = some ⟨0#3, 0#32, 0#32⟩ ∧ readReg polySession .nvoice = 2#32 ∧ (readReg polySession .status).getLsbD 0 = true := by decide +kernel

theorem witness_ConfigurationWriteIsReadBack :
    State.reset.rst = false ∧ State.reset.status.run = false ∧ State.reset.osc.length ≤ 16 ∧
    Reg.inMap State.reset.osc.length (.oscFreq 7) = true ∧ Reg.inMap State.reset.osc.length (.oscKind 7) = true ∧
    Reg.locked (.oscFreq 7) = true ∧ Reg.locked .ctrl = true ∧ Reg.locked (.oscKind 7) = true := by decide

/-! ### Steps, reset and commands -/

/-- A state with one request, `rst` low. -/
def asked (i : Input) : State := { State.reset with pending := [i] }

theorem witness_StepRunsDecodedRequest :
    State.reset.rst = false ∧ State.reset.pending = [] ∧ (asked (.evtPush 0#32)).pending = .evtPush 0#32 :: [] ∧
    decodeLanes .cmd (lanesOfWord 0x00000001#32) = .ok .start ∧
    decodeLanes .evtPort (lanesOfWord 0x00017F3C#32) = .ok (.push 0x00017F3C#32) ∧
    decodeLanes .tickPort (lanesOfWord 0x00000000#32) = .ok .frame ∧
    ((2#2 : BitVec 2) = 2#2 → (0x008#12 : BitVec 12) ≠ 0x010#12 ∧ (0x008#12 : BitVec 12) ≠ 0x014#12) := by decide

theorem witness_ResetLineHolds :
    (asked (.rst true)).pending = .rst true :: [] ∧ (asked (.rst false)).pending = .rst false :: [] ∧
    ({ asked .tick with rst := true } : State).rst = true ∧ ({ asked .tick with rst := true } : State).pending = .tick :: [] := by
  decide

theorem witness_SoftresetGivesTheTable : 1 ≤ mixSession.par.evqDepth := by decide +kernel

/-- The frames of the session that follows reset, at the first position and at the last before the clock stalls. -/
theorem witness_ResetConfigurationStarts :
    let s := startSession State.reset
    s.status.run = true ∧ s.ctrl = 0x00#8 ∧ (∀ o ∈ s.osc, o.kind = 0#3) ∧ s.volume = 0x3F800000#32 ∧ s.clkmod = 0#32 ∧
      s.peak = ZERO ∧ s.clk = float 0 ∧ ({ s with clk := 0x4B7FFFFF#32 } : State).clk = float (2 ^ 24 - 1) := by decide +kernel

theorem witness_StartRefusals :
    mixSession.status.run = true ∧ State.reset.status.run = false ∧
    validate { State.reset with srate := 0#32 } = some ⟨0x02#8, 0x00#8⟩ := by decide +kernel

/-- MIX with each peak strategy, FM, POLY, and the derived coefficient. -/
theorem witness_SuccessfulStart :
    State.reset.status.run = false ∧ validate State.reset = none ∧ validate { State.reset with ctrl := 0x10#8 } = none ∧
    validate { State.reset with ctrl := 0x01#8 } = none ∧ validate { State.reset with ctrl := 0xA2#8 } = none ∧
    validate { State.reset with ctrl := 0x0C#8, cutoff := 0x447A0000#32 } = none := by decide +kernel

theorem witness_StartRunsSelectedOperations :
    State.reset.status.run = false ∧ validate { State.reset with ctrl := 0x04#8 } = none ∧
    validate { State.reset with ctrl := 0x1C#8, cutoff := 0x447A0000#32 } = none ∧ ctrlMode 0x1C#8 = 0#2 ∧
    ctrlMode 0x04#8 = 0#2 := by decide +kernel

/-- Every code, each at the value beside its legal range. -/
theorem witness_ValidationReportsFirstFailure :
    validate { State.reset with ctrl := 0x03#8, srate := 0#32 } = some ⟨0x01#8, 0x00#8⟩ ∧
    validate { State.reset with srate := 0x01000001#32 } = some ⟨0x02#8, 0x00#8⟩ ∧
    validate { State.reset with srate := 0x01000000#32 } = none ∧ validate { State.reset with srate := 1#32 } = none ∧
    validate { State.reset with clkmod := 0x01000001#32 } = some ⟨0x03#8, 0x00#8⟩ ∧
    validate { State.reset with clkmod := 0x01000000#32 } = none ∧
    validate (withSlots [⟨1#3, 0#32, 0#32⟩, ⟨7#3, 0#32, 0#32⟩, ⟨6#3, 0#32, 0#32⟩]) = some ⟨0x04#8, 0x01#8⟩ ∧
    validate { State.reset with ctrl := 0xC2#8 } = some ⟨0x04#8, 0xFF#8⟩ ∧
    validate (withSlots [⟨0#3, 0x7FC00000#32, 0#32⟩, ⟨5#3, 0x7F800000#32, 0#32⟩]) = some ⟨0x05#8, 0x01#8⟩ ∧
    validate { withSlots [⟨0#3, 0#32, 0x7FC00000#32⟩, ⟨0#3, 0#32, 0x7FC00000#32⟩] with ctrl := 0x01#8 } =
      some ⟨0x06#8, 0x01#8⟩ ∧
    validate { State.reset with ctrl := 0x0C#8, cutoff := 0x46BB8000#32 } = some ⟨0x07#8, 0x00#8⟩ ∧
    validate { State.reset with ctrl := 0x04#8, alpha := 0x3F800001#32 } = some ⟨0x08#8, 0x00#8⟩ ∧
    validate { State.reset with ctrl := 0x04#8, alpha := 0x80000000#32 } = none ∧
    validate { State.reset with volume := 0xBF800000#32 } = some ⟨0x09#8, 0x00#8⟩ := by decide +kernel

theorem witness_ReservedCodesAreRefused :
    State.reset.status.run = false ∧ ctrlMode 0x03#8 = 3#2 ∧
    validate (withSlots (List.replicate 15 ⟨0#3, 0#32, 0#32⟩ ++ [⟨6#3, 0#32, 0#32⟩])) = some ⟨0x04#8, BitVec.ofNat 8 15⟩ ∧
    validate { State.reset with ctrl := 0xC2#8 } = some ⟨0x04#8, 0xFF#8⟩ := by decide +kernel

theorem witness_PlainCommands :
    1 ≤ State.reset.par.evqDepth ∧ (0x00000100#32).extractLsb' 8 24 ≠ 0#24 ∧ (0x00000000#32).extractLsb' 0 8 = 0x00#8 ∧
    0x07#8 ≤ (0x00000007#32).extractLsb' 0 8 ∧ 0x07#8 ≤ (0x000000FF#32).extractLsb' 0 8 := by decide

/-! ### Frames and events -/

theorem witness_ModeSamples :
    (∀ n, (voiceAt (drain quietSession) n).active = false) ∧ (voiceAt (drain polySession) 60#7).active = true := by
  decide +kernel

theorem witness_FrameRunsSelectedOperations :
    State.reset.status.run = false ∧ mixSession.status.run = true ∧ ctrlMode mixSession.ctrl = 0#2 ∧
    fmSession.status.run = true ∧ ctrlMode fmSession.ctrl = 1#2 ∧ polySession.status.run = true ∧
    ctrlMode polySession.ctrl = 2#2 ∧ ctrlFen quietSession.ctrl = true := by decide +kernel

theorem witness_FrameWritesOnlyItsRegisters :
    ∃ t u v, mixSession.status.run = true ∧ exec .frame mixSession = .next t ∧ fmSession.status.run = true ∧
      exec .frame fmSession = .next u ∧ polySession.status.run = true ∧ exec .frame polySession = .next v := by
  refine ⟨_, _, _, by decide +kernel, rfl, by decide +kernel, rfl, by decide +kernel, rfl⟩

/-- The stall at 2^24, the modulus 1, the wraps at 48000 and at 2^24, and the three kinds of frame, POLY with a voice and
without. -/
theorem witness_ClockCounts :
    mixSession.status.run = true ∧ ctrlMode mixSession.ctrl = 0#2 ∧ mixSession.clk = float 0 ∧ mixSession.clkmod = 0#32 ∧
    0x4B800000#32 = float (2 ^ 24) ∧ 0x473B7F00#32 = float 47999 ∧ 0x4B7FFFFF#32 = float (2 ^ 24 - 1) ∧
    fmSession.status.run = true ∧ ctrlMode fmSession.ctrl = 1#2 ∧ polySession.status.run = true ∧
    ctrlMode polySession.ctrl = 2#2 ∧ polySession.clk = float 0 ∧ (voiceAt (drain polySession) 60#7).active = true ∧
    quietSession.status.run = true ∧ ctrlMode quietSession.ctrl = 2#2 ∧
    (∀ n, (voiceAt (drain quietSession) n).active = false) ∧
    47999 < (48000#32).toNat ∧ 2 ^ 24 - 1 < (0x01000000#32).toNat ∧ 0 < (1#32).toNat := by decide +kernel

theorem witness_NoteEvents :
    (voiceAt polySession 60#7).active = true ∧ (voiceAt polySession 127#7).active = false := by decide +kernel

/-- A FIFO of one entry, full. -/
def fullFifo : State := { State.reset with par := { Params.default with evqDepth := 1 }, fifo := [.on 0#7 0#7] }

theorem witness_PushAcceptance :
    (0x00000000#32).extractLsb' 16 2 = 0#2 ∧ (0x00030000#32).extractLsb' 16 2 = 3#2 ∧
    (0x00017F3C#32).extractLsb' 16 2 = 1#2 ∧ (0x0002003C#32).extractLsb' 16 2 = 2#2 ∧
    fullFifo.fifo.length = fullFifo.par.evqDepth ∧ State.reset.fifo.length ≠ State.reset.par.evqDepth := by decide

theorem witness_DrainRunsTheHead :
    State.reset.fifo = [] ∧ ({ polySession with fifo := [.on 1#7 2#7, .off 60#7 0#7] } : State).fifo = .on 1#7 2#7 :: [.off 60#7 0#7] ∧
    ({ polySession with fifo := [.off 60#7 0#7] } : State).fifo = .off 60#7 0#7 :: [] := by decide +kernel

theorem witness_LastEventWins :
    ∀ k, (voiceAt { polySession with fifo := [.on 60#7 1#7, .off 60#7 0#7, .on 61#7 5#7] } k).active = false →
      (voiceAt { polySession with fifo := [.on 60#7 1#7, .off 60#7 0#7, .on 61#7 5#7] } k).loud = ZERO := by decide +kernel

/-! ### The oscillator and the primitives -/

/-- An infinite period, a remainder of zero, and the ends of the domain. -/
theorem witness_PhaseStaysBelowOne :
    OscArgs.wf ⟨0x4B800000#32, 0x4B800000#32, 0x00000001#32⟩ = true ∧ fdiv 0x4B800000#32 0x00000001#32 = INF ∧
    OscArgs.wf (at100 0x43F00000#32) = true ∧ fmodx 0x43F00000#32 (fdiv 0x473B8000#32 0x42C80000#32) = ZERO ∧
    OscArgs.wf ⟨0x00000000#32, 0x3F800000#32, 0x7F7FFFFF#32⟩ = true := by decide +kernel

theorem witness_OscillatorRange :
    paramsLegal Params.default = true ∧ OscArgs.wf tableArgs = true ∧ (5#3 : BitVec 3).toNat ≤ 5 := by decide +kernel

theorem witness_IntegerPeriodRepeats :
    OscArgs.wf (at100 0x00000000#32) = true ∧ isFinite (fdiv 0x473B8000#32 0x42C80000#32) = true ∧
    fUnits (fdiv 0x473B8000#32 0x42C80000#32) % 2 ^ 149 = 0 ∧ isClock 0x43F00000#32 = true ∧
    fUnits 0x43F00000#32 = fUnits 0x00000000#32 + fUnits (fdiv 0x473B8000#32 0x42C80000#32) := by decide +kernel

theorem witness_SineUnitProperties :
    paramsLegal { Params.default with sine := [(0x3E800000#32, 0x3F7FFFFF#32)], sineTol := 0x33800000#32 } = true ∧
    paramsLegal Params.default = true ∧ (0x3F7FFFFF#32 : F32).toNat ≤ 0x3F7FFFFF := by decide +kernel

theorem witness_SineReferenceIsSine : (0x00000000#32 : F32).toNat ≤ 0x3F7FFFFF ∧ (0x3F7FFFFF#32 : F32).toNat ≤ 0x3F7FFFFF := by decide

/-- 1 + 2^-24 is a tie. The greatest finite value with 2^103 more or less, times 2 and over 1/2, and the value below it. -/
theorem witness_ArithmeticRoundsToNearestEven :
    isFinite ONE = true ∧ isFinite 0x33800000#32 = true ∧ isFinite 0x3F800001#32 = true ∧ isFinite (fadd ONE 0x33800000#32) = true ∧
    (fInt (fadd ONE 0x33800000#32) - (fInt ONE + fInt 0x33800000#32)).natAbs
      = (fInt 0x3F800001#32 - (fInt ONE + fInt 0x33800000#32)).natAbs ∧
    fInt 0x3F800001#32 ≠ fInt (fadd ONE 0x33800000#32) ∧ isFinite (fmul ONE ONE) = true ∧ isFinite (fdiv ONE TWO) = true ∧
    fUnits TWO ≠ 0 ∧ fUnits HALF ≠ 0 ∧ isFinite 0x7F7FFFFF#32 = true ∧ isFinite 0xFF7FFFFF#32 = true ∧
    isFinite 0x73000000#32 = true ∧ (fInt 0x7F7FFFFF#32 + fInt 0x73000000#32).natAbs = (2 ^ 25 - 1) * 2 ^ 252 ∧
    isFinite 0xF3000000#32 = true ∧ (fInt 0x7F7FFFFF#32 - fInt 0xF3000000#32).natAbs = (2 ^ 25 - 1) * 2 ^ 252 ∧
    isFinite (fsub ONE 0xB3800000#32) = true ∧
    (fInt 0x7F7FFFFF#32 + fInt 0x72FFFFFF#32).natAbs < (2 ^ 25 - 1) * 2 ^ 252 ∧
    (2 ^ 25 - 1) * 2 ^ 252 * 2 ^ 149 ≤ (fInt 0xFF7FFFFF#32 * fInt TWO).natAbs ∧ fInt 0xFF7FFFFF#32 * fInt TWO < 0 ∧
    (2 ^ 25 - 1) * 2 ^ 252 * fUnits HALF ≤ fUnits 0x7F7FFFFF#32 * 2 ^ 149 := by decide +kernel

/-- Both kinds of NaN, the two zeros, a subnormal, the greatest finite value and the infinities. -/
theorem witness_ComparisonsOrderTheValues :
    isNaN 0x7F800001#32 = true ∧ isNaN 0xFFC00000#32 = true ∧ isNaN INF = false ∧ isNaN (fneg INF) = false ∧
    isFinite ZERO = true ∧ isFinite 0x80000000#32 = true ∧ fInt ZERO = fInt 0x80000000#32 ∧ isFinite 0x00000001#32 = true ∧
    isFinite 0x7F7FFFFF#32 = true ∧ isNaN 0x7F7FFFFF#32 = false ∧ (0x7F7FFFFF#32 : F32) ≠ INF := by decide +kernel

theorem witness_RemainderAndConversionsAreExact :
    isFinite 0xBF400000#32 = true ∧ isFinite 0x80000001#32 = true ∧ fUnits 0x80000001#32 ≠ 0 ∧ fUnits 0x80000000#32 = 0 ∧
    isFinite 0x80000000#32 = true ∧ isFinite 0x7F7FFFFF#32 = true := by decide +kernel

/-! ### Sessions -/

/-- Every conjunct of the invariant that is not about all notes is decided; the voices are those of the table. -/
theorem witness_inv_mix : mixSession.Inv :=
  ⟨by decide +kernel, by decide +kernel, by decide +kernel, by decide +kernel, by decide +kernel, by decide +kernel,
    by decide +kernel, by decide +kernel, fun _ => by unfold SessionConstants; decide +kernel, by decide +kernel,
    by decide +kernel⟩

theorem witness_inv_fm : fmSession.Inv :=
  ⟨by decide +kernel, by decide +kernel, by decide +kernel, by decide +kernel, by decide +kernel, by decide +kernel,
    by decide +kernel, by decide +kernel, fun _ => by unfold SessionConstants; decide +kernel, by decide +kernel,
    by decide +kernel⟩

theorem witness_inv_poly : polySession.Inv :=
  ⟨by decide +kernel, by decide +kernel, by decide +kernel, by decide +kernel, by decide +kernel, by decide +kernel,
    by decide +kernel, by decide +kernel, fun _ => by unfold SessionConstants; decide +kernel, by decide +kernel,
    by decide +kernel⟩

theorem witness_CombinedPeriodIsCappedLcm :
    validate mixSession = none ∧ ctrlMode mixSession.ctrl = 0#2 ∧ combinedPeriod mixSession = 480 ∧
    (∃ o ∈ mixSession.osc, o.kind ≠ 0#3 ∧ fdiv (float mixSession.srate.toNat) o.freq ≠ INF) ∧
    validate (withSlots [⟨1#3, 0x00000001#32, 0#32⟩]) = none ∧ ctrlMode (withSlots [⟨1#3, 0x00000001#32, 0#32⟩]).ctrl = 0#2 ∧
    fdiv (float (withSlots [⟨1#3, 0x00000001#32, 0#32⟩]).srate.toNat) 0x00000001#32 = INF := by decide +kernel

theorem witness_PeakOrderAndNormalisedRange :
    mixSession.Inv ∧ validate mixSession = none ∧ ctrlMode mixSession.ctrl = 0#2 ∧ mixSession.cperiod.toNat ≤ 2 ^ 24 ∧
    mixSession.clockOk ∧ mixSession.peak = fastPeak mixSession :=
  ⟨witness_inv_mix, by decide +kernel, by decide +kernel, by decide +kernel, by unfold State.clockOk; decide +kernel,
    by decide +kernel⟩

theorem witness_FilterOperations :
    (fge 0x00000000#32 ZERO = true ∧ fle 0x00000000#32 ONE = true) ∧ (fge ONE ZERO = true ∧ fle ONE ONE = true) ∧
    ¬(fge 0x3F800001#32 ZERO = true ∧ fle 0x3F800001#32 ONE = true) := by decide +kernel

theorem witness_UnitCoefficientPasses :
    State.reset.alpha = ONE ∧ isFinite 0x80000000#32 = true ∧ isFinite 0x3E800000#32 = true ∧ fSign 0x3E800000#32 = false ∧
    (0x3F000000#32 : F32) ≠ 0x80000000#32 := by decide +kernel

theorem witness_ClampRange :
    isNaN 0x7F800000#32 = false ∧ fgt 0x3F800001#32 ONE = true ∧ flt 0xBF800001#32 (fneg ONE) = true ∧
    inUnit 0x3F800000#32 = true ∧ inUnit 0xBF800000#32 = true := by decide +kernel

theorem witness_OscillatorCallsAreInDomain :
    (mixSession.Inv ∧ mixSession.status.run = true ∧ mixSession.clockOk ∧ ctrlMode mixSession.ctrl ≠ 2#2) ∧
    (fmSession.Inv ∧ fmSession.status.run = true ∧ fmSession.clockOk ∧ ctrlMode fmSession.ctrl = 1#2 ∧
      (carrier fmSession).kind ≠ 0#3) ∧
    (polySession.Inv ∧ polySession.status.run = true ∧ polySession.clockOk ∧ ctrlMode polySession.ctrl = 2#2) ∧
    (validate mixSession = none ∧ ctrlMode mixSession.ctrl = 0#2 ∧ 479 < combinedPeriod mixSession) :=
  ⟨⟨witness_inv_mix, by decide +kernel, by unfold State.clockOk; decide +kernel, by decide +kernel⟩,
    ⟨witness_inv_fm, by decide +kernel, by unfold State.clockOk; decide +kernel, by decide +kernel, by decide +kernel⟩,
    ⟨witness_inv_poly, by decide +kernel, by unfold State.clockOk; decide +kernel, by decide +kernel⟩,
    by decide +kernel⟩

theorem witness_PolyMagnitudeBound :
    polySession.Inv ∧ polySession.status.run = true ∧ polySession.clockOk ∧ ctrlMode polySession.ctrl = 2#2 :=
  ⟨witness_inv_poly, by decide +kernel, by unfold State.clockOk; decide +kernel, by decide +kernel⟩

theorem witness_FramesWriteNoNaN :
    (fmSession.Inv ∧ fmSession.status.run = true ∧ fmSession.clockOk ∧ fMag fmSession.fstate ≤ fMag (float 16)) ∧
    (polySession.Inv ∧ polySession.status.run = true ∧ polySession.clockOk ∧
      fMag polySession.fstate ≤ fMag (float 16) ∧ ctrlMode polySession.ctrl = 2#2) :=
  ⟨⟨witness_inv_fm, by decide +kernel, by unfold State.clockOk; decide +kernel, by decide +kernel⟩,
    witness_inv_poly, by decide +kernel, by unfold State.clockOk; decide +kernel, by decide +kernel, by decide +kernel⟩

theorem witness_ResetMeetsTheInvariant : paramsLegal fullFifo.par = true := by decide +kernel

/-- A session with a request pending. -/
theorem witness_StepKeepsTheInvariant : ∃ t, polySession.Inv ∧ step polySession = .next t := ⟨_, witness_inv_poly, rfl⟩

theorem witness_StepAlwaysAnswers : mixSession.Inv := witness_inv_mix

/-- The one stop, asked for by the tick port and by CMD TICK. -/
theorem witness_OnlyReservedModeStops :
    step { asked .tick with status := { State.reset.status with run := true }, ctrl := 0x03#8 } = .fault .reservedModeFrame ∧
    step { asked (.write 0x010#12 2#2 3#32) with status := { State.reset.status with run := true }, ctrl := 0x03#8 } =
      .fault .reservedModeFrame := ⟨rfl, rfl⟩

theorem witness_ClockStaysInteger :
    ∃ t, mixSession.clockOk ∧ (mixSession.status.run = true → mixSession.clkmod.toNat ≤ 2 ^ 24) ∧
      step { mixSession with pending := [.tick] } = .next t :=
  ⟨_, by unfold State.clockOk; decide +kernel, by decide +kernel, rfl⟩

theorem witness_ParametersAreFixed : ∃ t, step (asked .tick) = .next t := ⟨_, rfl⟩

/-- START changes CPERIOD; SOFTRESET and `rst` change PEAK back. -/
theorem witness_SessionConstantsAreLatched :
    (after (step (asked (.write 0x010#12 2#2 1#32)))).cperiod ≠ State.reset.cperiod ∧
    (after (step { mixSession with pending := [.write 0x010#12 2#2 6#32] })).peak ≠ mixSession.peak ∧
    (after (step { mixSession with pending := [.rst true] })).peak ≠ mixSession.peak := by decide +kernel

theorem witness_RunChangesOnlyByCommand :
    (asked (.write 0x010#12 2#2 1#32)).status.run = false ∧
    (after (step (asked (.write 0x010#12 2#2 1#32)))).status.run = true ∧
    (after (step { mixSession with pending := [.write 0x010#12 2#2 2#32] })).status.run = false ∧
    mixSession.status.run = true := by decide +kernel

/-- CFGERR, the lowest sticky bit, and DEGEN, the highest: each cleared, and each set. -/
theorem witness_StickyBits :
    let s := { State.reset with status := { State.reset.status with cfgerr := true, degen := true } }
    let ack := after (step { s with pending := [.write 0x00C#12 2#2 0x00004100#32] })
    let bad := { asked (.write 0x010#12 2#2 1#32) with srate := 0#32 }
    (statusWord s).getLsbD 8 = true ∧ (statusWord s).getLsbD 14 = true ∧ (statusWord ack).getLsbD 8 = false ∧
    (statusWord ack).getLsbD 14 = false ∧ (statusWord bad).getLsbD 8 = false ∧
    (statusWord (after (step bad))).getLsbD 8 = true := by decide +kernel

theorem witness_ConfigurationIsLocked :
    ∃ t, mixSession.status.run = true ∧ t.status.run = true ∧
      step { mixSession with pending := [.write 0x018#12 2#2 44100#32] } = .next t :=
  ⟨_, by decide +kernel, by decide +kernel, rfl⟩

theorem witness_WireIsNotObservable : ∃ t, step { mixSession with pending := [.tick] } = .next t := ⟨_, rfl⟩

end Sys2Proof.Tests
end

section
/-! PROOFS. The invariant of the block: reset establishes it (O49), and every step keeps it (O50). Each operation has one
lemma. A record `{ h with … }` gives the clauses that the operation touches, and takes every other clause from `h : s.Inv`,
whose statement is the same since it reads only fields that the operation leaves. -/

namespace Sys2Proof.Machine

/-- A clause of the invariant under a condition that does not hold. -/
theorem elim_of_eq_false {b : Bool} {p : Prop} (h : b = false) (hb : b = true) : p :=
  absurd (h.symm.trans hb) Bool.false_ne_true

/-! ### Reset -/

theorem voiceAt_resetWith (p : Params) (nOsc : Nat) (level : Bool) (todo : List Input) (n : BitVec 7) :
    voiceAt (State.resetWith p nOsc level todo) n = {} := by
  simp [voiceAt, State.resetWith]

/-- Reset establishes the invariant at either level of `rst`. -/
theorem inv_resetWith {p : Params} {nOsc : Nat} (level : Bool) (todo : List Input) (hp : paramsLegal p = true)
    (h1 : 1 ≤ nOsc) (h16 : nOsc ≤ 16) : (State.resetWith p nOsc level todo).Inv where
  slots := by simp [State.resetWith, h1, h16]
  params := hp
  room := Nat.zero_le _
  idleVoices n _ := by rw [voiceAt_resetWith]; rfl
  loudness n := by rw [voiceAt_resetWith]; decide
  validated := elim_of_eq_false rfl
  voiceless := elim_of_eq_false rfl
  resting := elim_of_eq_false rfl
  constants := elim_of_eq_false rfl
  errcode := by simp [State.resetWith]
  held hr := by
    obtain rfl : level = true := hr
    simp [resetAll, State.resetWith]

theorem inv_resetAll {s : State} (h : s.Inv) (level : Bool) : (resetAll level s).Inv :=
  inv_resetWith level s.pending h.params h.slots.1 h.slots.2

/-! ### The ports and the line `rst` -/

theorem inv_restPorts {s : State} (h : s.Inv) : (restPorts s).Inv :=
  { h with held := fun hr => (congrArg restPorts (h.held hr) :) }

theorem inv_takeRequest {s : State} (h : s.Inv) (rest : List Input) : (takeRequest rest s).Inv :=
  { h with held := fun hr => (congrArg (takeRequest rest) (h.held hr) :) }

theorem inv_drives {s : State} (h : s.Inv) (v : Word) : (drives v s).Inv :=
  { h with held := fun hr => (congrArg (drives v) (h.held hr) :) }

theorem inv_setRst {s : State} (h : s.Inv) (level : Bool) : (setRst level s).Inv := by
  cases level with
  | true => exact inv_resetAll h true
  | false => exact { h with held := elim_of_eq_false rfl }

theorem inv_heldInReset {s : State} (h : s.Inv) (i : Input) : (heldInReset i s).Inv := by
  cases i with
  | read o z => exact inv_drives h 0#32
  | _ => exact h

/-! ### Errors -/

@[simp] theorem run_stickySet (e : Err) (f : Status) : (stickySet e f).run = f.run := by cases e <;> rfl

theorem cfgerr_of_stickySet {e : Err} {f : Status} (h : (stickySet e f).cfgerr = false) : f.cfgerr = false := by
  cases e with
  | cfgerr => exact absurd h (by simp [stickySet])
  | _ => exact h

/-- STATUS and ERRCODE may change together, as long as no session begins and ERRCODE stays 0 without CFGERR. -/
theorem inv_withStatus {s : State} (h : s.Inv) (hrst : s.rst = false) {f : Status} {w : Word}
    (hrun : f.run = true → s.status.run = true) (hzero : f.cfgerr = false → w = 0#32) (hw : w.toNat < 2 ^ 16) :
    State.Inv { s with status := f, errcode := w } :=
  { h with
    validated := fun hr => h.validated (hrun hr)
    voiceless := fun hr => h.voiceless (hrun hr)
    resting := fun hr => h.resting (hrun hr)
    constants := fun hr => h.constants (hrun hr)
    errcode := ⟨hzero, hw⟩
    held := elim_of_eq_false hrst }

theorem inv_raise {s : State} (h : s.Inv) (hrst : s.rst = false) (e : Err) : (raise e s).Inv :=
  inv_withStatus h hrst (by simp) (fun hc => h.errcode.1 (cfgerr_of_stickySet hc)) h.errcode.2

theorem inv_startFailed {s : State} (h : s.Inv) (hrst : s.rst = false) (code slot : BitVec 8) :
    (startFailed code slot s).Inv := by
  refine inv_withStatus (f := stickySet .cfgerr s.status) h hrst id (fun hc => absurd hc (by simp [stickySet])) ?_
  have := (slot ++ code).isLt
  rw [BitVec.toNat_setWidth_of_le (by norm_num)]
  exact this

/-- A write of STATUS clears ERRCODE exactly when it clears CFGERR (R259). -/
theorem inv_acknowledge {s : State} (h : s.Inv) (hrst : s.rst = false) (w : Word) : (acknowledge w s).Inv := by
  obtain ⟨hzero, hlt⟩ := h.errcode
  apply inv_withStatus (f := stickyClear w s.status) h hrst id
  · intro hc
    cases hb : w.getLsbD 8 with
    | true => rfl
    | false => exact hzero (by simpa only [stickyClear, hb, Bool.not_false, Bool.and_true] using hc)
  · split
    · decide
    · exact hlt

/-! ### The event FIFO -/

theorem inv_withFifo {s : State} (h : s.Inv) (hrst : s.rst = false) {q : List Event} (hq : q.length ≤ s.par.evqDepth) :
    State.Inv { s with fifo := q } :=
  { h with room := hq, held := elim_of_eq_false hrst }

theorem inv_clearFifo {s : State} (h : s.Inv) (hrst : s.rst = false) : (clearFifo s).Inv :=
  inv_withFifo h hrst (Nat.zero_le _)

/-- An entry is added only where the FIFO is not full (R177). -/
theorem inv_pushWord {s : State} (h : s.Inv) (hrst : s.rst = false) (w : Word) : (pushWord w s).Inv := by
  obtain he | ⟨_, he⟩ | ⟨hne, e, he⟩ := pushWord_cases w s <;> rw [he]
  · exact inv_raise h hrst .evterr
  · exact inv_raise h hrst .evqovf
  · have := h.room
    exact inv_withFifo h hrst (by rw [List.length_append, List.length_singleton]; omega)

/-! ### Frames -/

theorem inUnitPos_loudRom (v : BitVec 7) : inUnitPos (loudRom v) = true := by
  revert v; decide +kernel

/-- The voice table keeps its two invariants under the drain. -/
theorem drain_idleVoices {s : State} (h : s.Inv) (n : BitVec 7) :
    (voiceAt (drain s) n).active = false → (voiceAt (drain s) n).loud = ZERO :=
  drain_voices (P := fun _ v => v.active = false → v.loud = ZERO) h.idleVoices (fun _ _ hf => absurd hf (by simp))
    (fun _ _ => rfl) n

theorem drain_loudness {s : State} (h : s.Inv) (n : BitVec 7) : inUnitPos (voiceAt (drain s) n).loud = true :=
  drain_voices (P := fun _ v => inUnitPos v.loud = true) h.loudness (fun _ v => inUnitPos_loudRom v) (fun _ => by decide) n

/-- A POLY frame that finds no voice after the drain puts the clock at `+0.0` (R183). -/
theorem clk_polyStage {s : State} (h : nvoice (polyStage s) = 0) : (polyStage s).clk = ZERO := by
  unfold polyStage voiceStage at *
  split
  · rfl
  · next hne => rw [if_neg hne] at h; exact absurd h hne

theorem inv_mixStage {s : State} (h : s.Inv) (hrst : s.rst = false) : (mixStage s).Inv :=
  { inv_clearFifo h hrst with held := elim_of_eq_false hrst }

theorem inv_noteDegeneracy {s : State} (h : s.Inv) (hrst : s.rst = false) : (noteDegeneracy s).Inv := by
  unfold noteDegeneracy
  split
  · exact { inv_raise h hrst .degen with held := elim_of_eq_false hrst }
  · exact h

theorem rst_noteDegeneracy (s : State) : (noteDegeneracy s).rst = s.rst := by
  unfold noteDegeneracy; split <;> rfl

theorem inv_fmStage {s : State} (h : s.Inv) (hrst : s.rst = false) : (fmStage s).Inv :=
  { inv_noteDegeneracy (inv_clearFifo h hrst) hrst with
    held := elim_of_eq_false ((rst_noteDegeneracy (clearFifo s)).trans hrst) }

/-- In POLY mode no clause but the one on a clock without voices depends on the voices present. -/
theorem inv_polyStage {s : State} (h : s.Inv) (hrst : s.rst = false) (hmode : ctrlMode s.ctrl = 2#2) :
    (polyStage s).Inv := by
  have hclk := clk_polyStage (s := s)
  rw [polyStage_frame] at hclk ⊢
  exact
    { h with
      room := Nat.zero_le _
      idleVoices := drain_idleVoices h
      loudness := drain_loudness h
      voiceless := fun _ hne => absurd hmode hne
      resting := fun _ _ => hclk
      held := elim_of_eq_false hrst }

theorem clk_filterStage (s : State) : (filterStage s).clk = s.clk := by
  unfold filterStage; split <;> rfl

theorem noAdvance_filterStage (s : State) : noAdvance (filterStage s) = noAdvance s := by
  unfold filterStage; split <;> rfl

/-- The end of a POLY frame without a voice leaves the clock (R207). -/
theorem clk_finishFrame {s : State} (hmode : ctrlMode s.ctrl = 2#2) (hn : nvoice s = 0) : (finishFrame s).clk = s.clk := by
  have hstay : noAdvance s = true := by simp [noAdvance, hmode, hn]
  have hclamp : noAdvance (clampStage (filterStage (volumeStage s))) = true :=
    (noAdvance_filterStage (volumeStage s)).trans hstay
  calc (finishFrame s).clk
      = (clockStage (clampStage (filterStage (volumeStage s)))).clk := rfl
    _ = (filterStage (volumeStage s)).clk := by rw [clockStage, if_pos hclamp]; rfl
    _ = s.clk := clk_filterStage (volumeStage s)

theorem inv_finishFrame {s : State} (h : s.Inv) (hrst : s.rst = false) : (finishFrame s).Inv := by
  have hclk := clk_finishFrame (s := s)
  rw [finishFrame_frame] at hclk ⊢
  exact
    { h with
      resting := fun hr hm hn => (hclk hm hn).trans (h.resting hr hm hn)
      held := elim_of_eq_false hrst }

theorem inv_frame {s t : State} (h : s.Inv) (hrst : s.rst = false) (ht : frame s = .next t) : t.Inv := by
  obtain ⟨_, rfl⟩ | ⟨_, rfl⟩ | ⟨hmode, rfl⟩ := frame_eq_next.1 ht
  · exact inv_finishFrame (inv_mixStage h hrst) hrst
  · exact inv_finishFrame (inv_fmStage h hrst) (by rw [fmStage_frame]; exact hrst)
  · exact inv_finishFrame (inv_polyStage h hrst hmode) (by rw [polyStage_frame]; exact hrst)

theorem inv_frameTick {s t : State} (h : s.Inv) (hrst : s.rst = false) (ht : frameTick s = .next t) : t.Inv := by
  cases hr : s.status.run with
  | true => exact inv_frame h hrst ((frameTick_running hr).symm.trans ht)
  | false => exact Host.Outcome.next.inj ((frameTick_stopped hr).symm.trans ht) ▸ h

/-! ### START -/

/-- Deriving ALPHA does not disturb the check of ALPHA, which is made only where ALPHA is the host's (R252, code 0x08). -/
theorem checkAlpha_alphaStage (s : State) : checkAlpha (alphaStage s) = checkAlpha s := by
  unfold alphaStage
  split
  · next hd =>
    obtain ⟨-, ha⟩ := Bool.and_eq_true_iff.1 hd
    simp [checkAlpha, deriveAlpha, ha]
  · rfl

theorem validate_alphaStage (s : State) : validate (alphaStage s) = validate s := by
  unfold validate
  rw [checkAlpha_alphaStage]
  unfold alphaStage
  split <;> rfl

theorem validate_constantsStage (s : State) : validate (constantsStage s) = validate s := by
  unfold constantsStage; split <;> rfl

/-- What START writes passes the checks that START has made. -/
theorem validate_startSession (s : State) : validate (startSession s) = validate s :=
  calc validate (startSession s)
      = validate (constantsStage (alphaStage (clearSession s))) := rfl
    _ = validate (alphaStage (clearSession s)) := validate_constantsStage _
    _ = validate (clearSession s) := validate_alphaStage _
    _ = validate s := rfl

theorem alpha_alphaStage {s : State} (hf : ctrlFen s.ctrl = true) (ha : ctrlAcalc s.ctrl = true) :
    (alphaStage s).alpha = derivedAlpha s.cutoff (sampleRate s) := by
  simp [alphaStage, deriveAlpha, hf, ha]

/-- CPERIOD and PEAK are computed from what the configuration still is after they are written. -/
theorem sessionConstants_constantsStage {s : State}
    (halpha : ctrlFen s.ctrl = true → ctrlAcalc s.ctrl = true → s.alpha = derivedAlpha s.cutoff (sampleRate s)) :
    SessionConstants (constantsStage s) := by
  unfold constantsStage
  split
  · next hmix => exact ⟨fun _ => ⟨rfl, rfl⟩, fun hne => absurd hmix hne, halpha⟩
  · next hmix => exact ⟨fun h0 => absurd h0 hmix, fun _ => ⟨rfl, rfl⟩, halpha⟩

theorem sessionConstants_startSession (s : State) : SessionConstants (startSession s) := by
  refine sessionConstants_constantsStage (s := alphaStage (clearSession s)) ?_
  intro hf ha
  have hctrl : (alphaStage (clearSession s)).ctrl = s.ctrl := by unfold alphaStage; split <;> rfl
  rw [hctrl] at hf ha
  rw [alpha_alphaStage (s := clearSession s) hf ha]
  unfold alphaStage
  split <;> rfl

/-- A session begins with the checks passed, the voice table empty, the clock at `+0.0` and its constants computed. -/
theorem inv_startSession {s : State} (h : s.Inv) (hrst : s.rst = false) (hv : validate s = none) :
    (startSession s).Inv := by
  have hvalid := (validate_startSession s).trans hv
  have hconst := sessionConstants_startSession s
  have hvoice : ∀ n, voiceAt (startSession s) n = {} := by
    intro n
    rw [voiceAt_congr (t := startSession s) (s := clearVoices s) (by rw [startSession_frame]; rfl), voiceAt_clearVoices]
  rw [startSession_frame] at hvalid hconst hvoice ⊢
  exact
    { h with
      room := Nat.zero_le _
      idleVoices := fun n _ => by rw [hvoice]; rfl
      loudness := fun n => by rw [hvoice]; decide
      validated := fun _ => hvalid
      voiceless := fun _ _ n => by rw [hvoice]
      resting := fun _ _ _ => rfl
      constants := fun _ => hconst
      held := elim_of_eq_false hrst }

theorem inv_startOp {s : State} (h : s.Inv) (hrst : s.rst = false) : (startOp s).Inv := by
  obtain ⟨_, he⟩ | ⟨_, e, _, he⟩ | ⟨_, hv, he⟩ := startOp_cases s <;> rw [he]
  · exact inv_raise h hrst .cmderr
  · exact inv_startFailed h hrst e.code e.slot
  · exact inv_startSession h hrst hv

theorem inv_stop {s : State} (h : s.Inv) (hrst : s.rst = false) : (setRun false s).Inv :=
  inv_withStatus (f := { s.status with run := false }) h hrst (elim_of_eq_false rfl) h.errcode.1 h.errcode.2

/-! ### The register bus -/

/-- A store to a register outside the locked set is an acknowledgement of errors or stores nothing. -/
theorem storeReg_of_not_locked {r : Reg} (hl : r.locked = false) (w : Word) (s : State) :
    storeReg r w s = acknowledge w s ∨ storeReg r w s = s := by
  cases r with
  | status => exact .inl rfl
  | ctrl | srate | clkmod | volume | cutoff | alpha | oscKind | oscFreq | oscDepth => exact absurd hl (by simp [Reg.locked])
  | _ => exact .inr rfl

/-- A store to a register of the locked set writes the configuration alone, and no slot is added or removed. -/
theorem storeReg_of_locked {r : Reg} (hl : r.locked = true) (w : Word) (s : State) :
    storeReg r w s =
      { s with
        ctrl := (storeReg r w s).ctrl, srate := (storeReg r w s).srate, clkmod := (storeReg r w s).clkmod
        volume := (storeReg r w s).volume, cutoff := (storeReg r w s).cutoff, alpha := (storeReg r w s).alpha
        osc := (storeReg r w s).osc } ∧
    (storeReg r w s).osc.length = s.osc.length := by
  cases r with
  | ctrl | srate | clkmod | volume | cutoff | alpha => exact ⟨rfl, rfl⟩
  | oscKind | oscFreq | oscDepth => exact ⟨rfl, List.length_modify ..⟩
  | _ => exact absurd hl (by simp [Reg.locked])

/-- While no session runs the configuration is free. -/
theorem inv_storeReg_locked {s : State} (h : s.Inv) (hrst : s.rst = false) {r : Reg} (hl : r.locked = true)
    (hrun : s.status.run = false) (w : Word) : (storeReg r w s).Inv := by
  obtain ⟨hframe, hlen⟩ := storeReg_of_locked hl w s
  have hslots := h.slots
  rw [← hlen] at hslots
  rw [hframe] at hslots ⊢
  exact
    { h with
      slots := hslots
      validated := elim_of_eq_false hrun
      voiceless := elim_of_eq_false hrun
      resting := elim_of_eq_false hrun
      constants := elim_of_eq_false hrun
      held := elim_of_eq_false hrst }

theorem inv_storeReg {s : State} (h : s.Inv) (hrst : s.rst = false) {r : Reg}
    (hfree : r.locked = false ∨ s.status.run = false) (w : Word) : (storeReg r w s).Inv := by
  cases hl : r.locked with
  | true => exact inv_storeReg_locked h hrst hl (hfree.resolve_left (by simp [hl])) w
  | false =>
    obtain he | he := storeReg_of_not_locked hl w s <;> rw [he]
    · exact inv_acknowledge h hrst w
    · exact h

theorem inv_writeReg {s : State} (h : s.Inv) (hrst : s.rst = false) (r : Reg) (w : Word) : (writeReg r w s).Inv := by
  obtain ⟨_, he⟩ | ⟨_, _, he⟩ | ⟨_, hfree, he⟩ := writeReg_cases r w s <;> rw [he]
  · exact inv_raise h hrst .accerr
  · exact inv_raise h hrst .lockerr
  · exact inv_storeReg h hrst hfree w

theorem inv_busRead {s : State} (h : s.Inv) (hrst : s.rst = false) (o : BitVec 12) (z : BitVec 2) :
    (busRead o z s).Inv := by
  unfold busRead
  split
  · exact inv_drives h _
  · exact inv_drives (inv_raise h hrst .accerr) _

theorem inv_busWrite {s : State} (h : s.Inv) (hrst : s.rst = false) (o : BitVec 12) (z : BitVec 2) (w : Word) :
    (busWrite o z w s).Inv := by
  unfold busWrite
  split
  · exact inv_writeReg h hrst _ w
  · exact inv_raise h hrst .accerr

theorem inv_plainAccess {s : State} (h : s.Inv) (hrst : s.rst = false) (i : Input) : (plainAccess i s).Inv := by
  cases i with
  | read o z => exact inv_busRead h hrst o z
  | write o z w => exact inv_busWrite h hrst o z w
  | _ => exact h

/-! ### The step -/

/-- A command keeps the invariant (R221 to R229). -/
theorem inv_exec_decodeCmd {s t : State} (h : s.Inv) (hrst : s.rst = false) {w : Word}
    (ht : exec (decodeCmd w) s = .next t) : t.Inv := by
  obtain hd | hd | hd | hd | hd | hd | hd := decodeCmd_cases w <;> rw [hd] at ht
  · exact Host.Outcome.next.inj ht ▸ inv_startOp h hrst
  · exact Host.Outcome.next.inj ht ▸ inv_stop h hrst
  · exact inv_frameTick h hrst ht
  · exact Host.Outcome.next.inj ht ▸ inv_clearFifo h hrst
  · exact Host.Outcome.next.inj ht ▸ { h with held := elim_of_eq_false hrst }
  · exact Host.Outcome.next.inj ht ▸ inv_resetAll h s.rst
  · exact Host.Outcome.next.inj ht ▸ inv_raise h hrst .cmderr

/-- Every operation of the table that a request can be keeps the invariant. -/
theorem inv_exec_request {s t : State} (h : s.Inv) (hrst : s.rst = false) {i : Input} {op : Instr}
    (hop : requestInstr i = some op) (ht : exec op s = .next t) : t.Inv := by
  obtain rfl | ⟨w, rfl⟩ | ⟨w, rfl, _⟩ := requestInstr_cases hop
  · exact inv_frameTick h hrst ht
  · obtain rfl := Host.Outcome.next.inj ht
    exact inv_pushWord h hrst w
  · exact inv_exec_decodeCmd h hrst ht

theorem inv_perform {s t : State} (h : s.Inv) {i : Input} (ht : perform i s = .next t) : t.Inv := by
  obtain ⟨l, _, he⟩ | ⟨_, he⟩ | ⟨hrst, op, hop, he⟩ | ⟨hrst, _, he⟩ := perform_cases i s <;> rw [he] at ht
  · exact Host.Outcome.next.inj ht ▸ inv_setRst h l
  · exact Host.Outcome.next.inj ht ▸ inv_heldInReset h i
  · exact inv_exec_request h hrst hop ht
  · exact Host.Outcome.next.inj ht ▸ inv_plainAccess h hrst i

/-- Settles O50: a step ends the pulses on the ports or performs one request, and each kind of request keeps the
invariant. -/
theorem stepKeepsTheInvariant : Obligations.StepKeepsTheInvariant := by
  intro s t h ht
  obtain ⟨_, he⟩ | ⟨i, rest, _, he⟩ := step_cases s <;> rw [he] at ht
  · exact Host.Outcome.next.inj ht ▸ inv_restPorts h
  · exact inv_perform (inv_takeRequest h rest) ht

/-- Settles O49: reset establishes the invariant for every legal choice of the parameters, the defaults among them. -/
theorem resetMeetsTheInvariant : Obligations.ResetMeetsTheInvariant :=
  ⟨inv_resetWith false [] (by decide +kernel) (by decide) (by decide),
    fun _ _ todo hp h1 h16 => inv_resetWith false todo hp h1 h16⟩

end Sys2Proof.Machine
end

section
/-! PROOFS. Rounding (O37). The middle between two neighbouring magnitudes decides on which side of it a quotient rounds, so
that the rounded value is a nearest one; a result that is rounded from an exact quotient of integers is `RoundsTo` it. -/

namespace Sys2Proof.Machine

/-! ### Magnitudes -/

/-- The units of 2^-149 that the exponent and fraction fields stand for. -/
def magUnits (m : Nat) : Nat := if m < 2 ^ 23 then m else (2 ^ 23 + m % 2 ^ 23) * 2 ^ (m / 2 ^ 23 - 1)

theorem fUnits_eq_magUnits (x : F32) : fUnits x = magUnits (fMag x) := rfl

/-- The fields of a significand in a binade, the carry into the next binade included. -/
theorem magUnits_significand {s e : Nat} (hs : s ≤ 2 ^ 24) (he : 0 < e → 2 ^ 23 ≤ s) :
    magUnits (e * 2 ^ 23 + s) = s * 2 ^ e := by
  unfold magUnits
  rcases lt_or_ge s (2 ^ 23) with hsub | hnorm
  · obtain rfl : e = 0 := by omega
    rw [Nat.zero_mul, Nat.zero_add, if_pos hsub, pow_zero, Nat.mul_one]
  · rw [if_neg (by omega)]
    rcases hs.lt_or_eq with hlt | hcarry
    · have hexp : (e * 2 ^ 23 + s) / 2 ^ 23 = e + 1 := by omega
      have hfrac : (e * 2 ^ 23 + s) % 2 ^ 23 = s - 2 ^ 23 := by omega
      rw [hexp, hfrac, Nat.add_sub_cancel' hnorm, Nat.add_sub_cancel]
    · have hexp : (e * 2 ^ 23 + s) / 2 ^ 23 = e + 1 + 1 := by omega
      have hfrac : (e * 2 ^ 23 + s) % 2 ^ 23 = 0 := by omega
      rw [hexp, hfrac, hcarry, Nat.add_sub_cancel]
      ring

/-- Every magnitude is a significand of 24 bits in a binade, and the next magnitude is one unit in the last place above. -/
theorem exists_significand (m : Nat) :
    ∃ s e, m = e * 2 ^ 23 + s ∧ s < 2 ^ 24 ∧ (0 < e → 2 ^ 23 ≤ s) ∧ magUnits m = s * 2 ^ e ∧
      magUnits (m + 1) = (s + 1) * 2 ^ e := by
  obtain ⟨s, e, rfl, hs, he⟩ : ∃ s e, m = e * 2 ^ 23 + s ∧ s < 2 ^ 24 ∧ (0 < e → 2 ^ 23 ≤ s) := by
    rcases lt_or_ge m (2 ^ 23) with hsub | hnorm
    · exact ⟨m, 0, by omega, by omega, by omega⟩
    · exact ⟨2 ^ 23 + m % 2 ^ 23, m / 2 ^ 23 - 1, by omega, by omega, by omega⟩
  have hnext := magUnits_significand (s := s + 1) (e := e) (by omega) (by omega)
  rw [← Nat.add_assoc] at hnext
  exact ⟨s, e, rfl, hs, he, magUnits_significand hs.le he, hnext⟩

theorem magUnits_strictMono : StrictMono magUnits := by
  refine strictMono_nat_of_lt_succ fun m => ?_
  obtain ⟨s, e, -, -, -, h0, h1⟩ := exists_significand m
  rw [h0, h1]
  exact Nat.mul_lt_mul_of_pos_right (Nat.lt_succ_self s) (Nat.two_pow_pos e)

/-- In which binade a quotient is rounded does not matter for whether it passes a magnitude. -/
theorem lt_binade_rne_iff {n d s e : Nat} (hd : 0 < d) (hs : s < 2 ^ 24) (he : 0 < e → 2 ^ 23 ≤ s) :
    e * 2 ^ 23 + s < binade n d * 2 ^ 23 + rne n (d * 2 ^ binade n d) ↔ s < rne n (d * 2 ^ e) := by
  rcases lt_trichotomy (binade n d) e with hlt | heq | hgt
  · have hround : rne n (d * 2 ^ binade n d) ≤ 2 ^ 24 := rne_binade_le hd
    have hsmall : n / d < 2 ^ (23 + e) :=
      (div_lt_binade n d).trans_le (Nat.pow_le_pow_right (by norm_num) (by omega))
    have hround' : rne n (d * 2 ^ e) ≤ 2 ^ 23 := by
      rw [Nat.div_lt_iff_lt_mul hd, pow_add] at hsmall
      exact rne_le (Nat.mul_pos hd (Nat.two_pow_pos e)) (by linarith)
    omega
  · rw [heq, Nat.add_lt_add_iff_left]
  · have hround : 2 ^ 23 ≤ rne n (d * 2 ^ binade n d) := le_rne_binade hd (by omega)
    have hbig : 2 ^ (24 + e) ≤ n / d :=
      (Nat.pow_le_pow_right (by norm_num) (by omega)).trans (binade_le_div (by omega))
    have hround' : 2 ^ 24 ≤ rne n (d * 2 ^ e) := by
      rw [Nat.le_div_iff_mul_le hd, pow_add] at hbig
      exact le_rne (Nat.mul_pos hd (Nat.two_pow_pos e)) (by linarith)
    omega

/-- A quotient rounds above a magnitude exactly when it lies above the middle to the next one, or on it and the magnitude is
odd. -/
theorem lt_roundMag_iff {n d m : Nat} (hd : 0 < d) (hm : m < 0x7F800000) :
    m < roundMag n d ↔
      (magUnits m + magUnits (m + 1)) * d < 2 * n ∨ ((magUnits m + magUnits (m + 1)) * d = 2 * n ∧ m % 2 = 1) := by
  obtain ⟨s, e, hme, hs, he, h0, h1⟩ := exists_significand m
  have hmid : (magUnits m + magUnits (m + 1)) * d = (2 * s + 1) * (d * 2 ^ e) := by rw [h0, h1]; ring
  have hpar : m % 2 = s % 2 := by omega
  rw [hmid, hpar, ← lt_rne_iff (Nat.mul_pos hd (Nat.two_pow_pos e)) s, ← lt_binade_rne_iff hd hs he, ← hme]
  rw [roundMag, lt_min_iff]
  exact and_iff_left hm

/-- Of two numbers, the one on the side of the middle where `n` lies is the nearer, and on the middle they are equally near. -/
theorem nearer_of_middle {p q n : Int} (h : q < p ∧ q + p ≤ 2 * n ∨ p < q ∧ 2 * n ≤ q + p) :
    (p - n).natAbs ≤ (q - n).natAbs ∧ ((p - n).natAbs = (q - n).natAbs → q + p = 2 * n) := by
  omega

/-- No magnitude is nearer to a quotient than the one it rounds to, which is even where another is as near. -/
theorem roundMag_nearest {n d : Nat} (k : Nat) (hd : 0 < d) (hm : roundMag n d < 0x7F800000) :
    ((magUnits (roundMag n d) * d : Int) - n).natAbs ≤ ((magUnits k * d : Int) - n).natAbs ∧
      (((magUnits (roundMag n d) * d : Int) - n).natAbs = ((magUnits k * d : Int) - n).natAbs → k ≠ roundMag n d →
        roundMag n d % 2 = 0) := by
  have hmul : ∀ {i j : Nat}, i < j → magUnits i * d < magUnits j * d := fun hij =>
    Nat.mul_lt_mul_of_pos_right (magUnits_strictMono hij) hd
  have hmono : ∀ {i j : Nat}, i ≤ j → magUnits i * d ≤ magUnits j * d := fun hij =>
    Nat.mul_le_mul_right d (magUnits_strictMono.monotone hij)
  rcases lt_trichotomy k (roundMag n d) with hlt | rfl | hgt
  · obtain ⟨p, hp⟩ : ∃ p, roundMag n d = p + 1 := ⟨roundMag n d - 1, by omega⟩
    have hmid := (lt_roundMag_iff hd (by omega)).1 (show p < roundMag n d by omega)
    rw [hp] at hlt ⊢
    rw [Nat.add_mul] at hmid
    have h1 := hmul hlt
    have h2 := hmono (show k ≤ p by omega)
    have key := nearer_of_middle (p := (magUnits (p + 1) * d : Nat)) (q := (magUnits k * d : Nat)) (n := n) (by omega)
    push_cast at key
    exact ⟨key.1, fun he _ => by have := key.2 he; omega⟩
  · exact ⟨le_rfl, fun _ hne => absurd rfl hne⟩
  · have hmid := (lt_roundMag_iff (n := n) hd hm).not.1 (lt_irrefl _)
    generalize roundMag n d = m at *
    rw [Nat.add_mul] at hmid
    have h1 := hmul hgt
    have h2 := hmono (show m + 1 ≤ k from hgt)
    have key := nearer_of_middle (p := (magUnits m * d : Nat)) (q := (magUnits k * d : Nat)) (n := n) (by omega)
    push_cast at key
    exact ⟨key.1, fun he _ => by have := key.2 he; omega⟩

theorem roundMag_zero (d : Nat) : roundMag 0 d = 0 := by
  simp [roundMag, binade, rne]

/-! ### Results that are rounded once -/

theorem fInt_eq_magUnits (x : F32) : fInt x = if fSign x then -(magUnits (fMag x) : Int) else magUnits (fMag x) := rfl

theorem fInt_packSign (neg : Bool) {m : Nat} (h : m < 2 ^ 31) :
    fInt (packSign neg m) = if neg then -(magUnits m : Int) else magUnits m := by
  rw [fInt_eq_magUnits, fSign_packSign neg h, fMag_packSign neg h]

/-- A pattern is the quotient `N / d` of integers, in units of 2^-149, rounded once; the sign of a zero is left open. -/
def RoundsTo (r : F32) (N : Int) (d : Nat) : Prop :=
  ∃ neg : Bool, (N < 0 → neg = true) ∧ (0 < N → neg = false) ∧ r = packSign neg (roundMag N.natAbs d)

theorem RoundsTo.isFinite_iff {r : F32} {N : Int} {d : Nat} (h : RoundsTo r N d) (hd : 0 < d) :
    isFinite r = true ↔ N.natAbs < (2 ^ 25 - 1) * 2 ^ 252 * d := by
  obtain ⟨neg, -, -, rfl⟩ := h
  rw [← roundMag_lt_inf_iff hd, isFinite, fMag_packSign _ (roundMag_lt _ _), decide_eq_true_eq]

theorem RoundsTo.overflow {r : F32} {N : Int} {d : Nat} (h : RoundsTo r N d) (hd : 0 < d)
    (hbig : (2 ^ 25 - 1) * 2 ^ 252 * d ≤ N.natAbs) : r = if N < 0 then fneg INF else INF := by
  obtain ⟨neg, hneg, hpos, rfl⟩ := h
  have hinf : roundMag N.natAbs d = 0x7F800000 := by
    have h1 := roundMag_le_inf N.natAbs d
    have h2 := (roundMag_lt_inf_iff (n := N.natAbs) hd).not.2 (by omega)
    omega
  have hN : N ≠ 0 := by
    rintro rfl
    have : 0 < (2 ^ 25 - 1) * 2 ^ 252 * d := by positivity
    simp only [Int.natAbs_zero] at hbig
    omega
  rw [hinf]
  split
  · rw [hneg ‹_›]; decide
  · rw [hpos (by omega)]; decide

/-- Signs do not matter for which of two magnitudes `P` and `Q` is the nearer to `N`, when `p` has magnitude `P` and the
sign of `N`; they can only break a tie. -/
theorem natAbs_sub_le_of_magnitudes {p q P Q N : Int} (hP : 0 ≤ P) (hQ : 0 ≤ Q) (hp : p = P ∧ 0 ≤ N ∨ p = -P ∧ N ≤ 0)
    (hq : q = Q ∨ q = -Q) (h : (P - N.natAbs).natAbs ≤ (Q - N.natAbs).natAbs) :
    (p - N).natAbs ≤ (q - N).natAbs ∧
      ((p - N).natAbs = (q - N).natAbs → q ≠ p → (P - N.natAbs).natAbs = (Q - N.natAbs).natAbs ∧ (Q ≠ P ∨ N = 0)) := by
  omega

/-- No finite value is nearer to the exact quotient, and where another is as near the result has an even fraction field. -/
theorem RoundsTo.nearest {r y : F32} {N : Int} {d : Nat} (h : RoundsTo r N d) (hd : 0 < d) (hr : isFinite r = true) :
    (fInt r * d - N).natAbs ≤ (fInt y * d - N).natAbs ∧
      ((fInt r * d - N).natAbs = (fInt y * d - N).natAbs → fInt y ≠ fInt r → fMag r % 2 = 0) := by
  obtain ⟨neg, hneg, hpos, rfl⟩ := h
  rw [isFinite, fMag_packSign _ (roundMag_lt _ _), decide_eq_true_eq] at hr
  rw [fMag_packSign _ (roundMag_lt _ _)]
  have hvalue := fInt_packSign neg (roundMag_lt N.natAbs d)
  have hzero : N = 0 → roundMag N.natAbs d = 0 := by rintro rfl; rw [Int.natAbs_zero, roundMag_zero]
  obtain ⟨hle, htie⟩ := roundMag_nearest (fMag y) hd hr
  -- With the result and its fields opaque, what is left is about signs.
  generalize packSign neg (roundMag N.natAbs d) = r at *
  generalize roundMag N.natAbs d = m at *
  have hp : fInt r * d = magUnits m * d ∧ 0 ≤ N ∨ fInt r * d = -(magUnits m * d) ∧ N ≤ 0 := by
    cases neg with
    | false =>
      exact .inl ⟨by rw [hvalue, if_neg Bool.false_ne_true], not_lt.1 fun hN => Bool.false_ne_true (hneg hN)⟩
    | true =>
      exact .inr ⟨by rw [hvalue, if_pos rfl, neg_mul], not_lt.1 fun hN => Bool.false_ne_true (hpos hN).symm⟩
  have hq : fInt y * d = magUnits (fMag y) * d ∨ fInt y * d = -(magUnits (fMag y) * d) := by
    rw [fInt_eq_magUnits y]
    split
    · exact .inr (neg_mul _ _)
    · exact .inl rfl
  obtain ⟨hnear, htie'⟩ := natAbs_sub_le_of_magnitudes (by positivity) (by positivity) hp hq hle
  refine ⟨hnear, fun he hne => ?_⟩
  obtain ⟨heq, hdiff | h0⟩ := htie' he fun hqp => hne (Int.eq_of_mul_eq_mul_right (by omega) hqp)
  · exact htie heq fun hk => hdiff (by rw [hk])
  · rw [hzero h0]

/-! ### A sum is rounded from an integer -/

theorem RoundsTo.isFinite_iff_one {r : F32} {N : Int} (h : RoundsTo r N 1) :
    isFinite r = true ↔ N.natAbs < (2 ^ 25 - 1) * 2 ^ 252 := h.isFinite_iff Nat.one_pos

theorem RoundsTo.overflow_one {r : F32} {N : Int} (h : RoundsTo r N 1) (hbig : (2 ^ 25 - 1) * 2 ^ 252 ≤ N.natAbs) :
    r = if N < 0 then fneg INF else INF := h.overflow Nat.one_pos hbig

theorem RoundsTo.nearest_one {r y : F32} {N : Int} (h : RoundsTo r N 1) (hr : isFinite r = true) :
    (fInt r - N).natAbs ≤ (fInt y - N).natAbs ∧
      ((fInt r - N).natAbs = (fInt y - N).natAbs → fInt y ≠ fInt r → fMag r % 2 = 0) := by
  simpa only [Nat.cast_one, mul_one] using h.nearest (y := y) Nat.one_pos hr

/-! ### The four operations -/

theorem fadd_roundsTo {a b : F32} (ha : isFinite a = true) (hb : isFinite b = true) :
    RoundsTo (fadd a b) (fInt a + fInt b) 1 := by
  unfold fadd
  simp only [isNaN_of_finite ha, isNaN_of_finite hb, isInf_of_finite ha, isInf_of_finite hb, Bool.or_self,
    Bool.false_eq_true, if_false]
  split
  · next h0 =>
    rw [h0]
    exact ⟨_, fun h => absurd h (lt_irrefl 0), fun h => absurd h (lt_irrefl 0), by rw [Int.natAbs_zero, roundMag_zero]⟩
  · exact ⟨_, fun h => decide_eq_true h, fun h => decide_eq_false (by omega), rfl⟩

theorem fsub_roundsTo {a b : F32} (ha : isFinite a = true) (hb : isFinite b = true) :
    RoundsTo (fsub a b) (fInt a - fInt b) 1 := by
  rw [fsub_of_finite ha hb, sub_eq_add_neg, ← fInt_fneg]
  exact fadd_roundsTo ha (by rw [isFinite_fneg, hb])

/-- The sign bits tell the sign of the product of two values that are not zero. -/
theorem sign_fInt_mul (a b : F32) :
    (fInt a * fInt b < 0 → (fSign a != fSign b) = true) ∧ (0 < fInt a * fInt b → (fSign a != fSign b) = false) := by
  have h : (0 : Int) ≤ fUnits a * fUnits b := by positivity
  unfold fInt
  cases fSign a <;> cases fSign b <;> simp <;> linarith

theorem fmul_roundsTo {a b : F32} (ha : isFinite a = true) (hb : isFinite b = true) :
    RoundsTo (fmul a b) (fInt a * fInt b) (2 ^ 149) := by
  obtain ⟨hneg, hpos⟩ := sign_fInt_mul a b
  refine ⟨fSign a != fSign b, hneg, hpos, ?_⟩
  rw [Int.natAbs_mul, natAbs_fInt, natAbs_fInt]
  simp [fmul, isNaN_of_finite ha, isNaN_of_finite hb, isInf_of_finite ha, isInf_of_finite hb]

/-- The value of the dividend with the sign of the quotient, for a divisor that is not zero. -/
def signedDividend (a b : F32) : Int := if fSign b then -fInt a else fInt a

theorem natAbs_signedDividend (a b : F32) : (signedDividend a b * 2 ^ 149).natAbs = fUnits a * 2 ^ 149 := by
  rw [Int.natAbs_mul]
  unfold signedDividend
  split <;> simp [natAbs_fInt]

theorem fInt_mul_eq_signedDividend (a b : F32) : fInt a * fInt b = signedDividend a b * fUnits b := by
  unfold signedDividend fInt
  cases fSign b <;> simp

theorem signedDividend_neg_iff {a b : F32} (hb0 : fUnits b ≠ 0) :
    signedDividend a b * 2 ^ 149 < 0 ↔ fInt a * fInt b < 0 := by
  have hb : (0 : Int) < fUnits b := by omega
  rw [fInt_mul_eq_signedDividend]
  constructor <;> intro h <;> nlinarith

/-- The distance of a quotient, over the common denominator, is the same with the sign of the divisor put in the dividend. -/
theorem natAbs_mul_fInt_sub (z : Int) (a b : F32) :
    (z * fInt b - fInt a * 2 ^ 149).natAbs = (z * fUnits b - signedDividend a b * 2 ^ 149).natAbs := by
  unfold signedDividend
  rw [fInt.eq_def b]
  split
  · rw [← Int.natAbs_neg]; congr 1; ring
  · rfl

theorem fdiv_roundsTo {a b : F32} (ha : isFinite a = true) (hb : isFinite b = true) (hb0 : fUnits b ≠ 0) :
    RoundsTo (fdiv a b) (signedDividend a b * 2 ^ 149) (fUnits b) := by
  obtain ⟨hneg, hpos⟩ := sign_fInt_mul a b
  have hz : isZero b = false := decide_eq_false ((fMag_eq_zero_iff hb).not.1 hb0)
  refine ⟨fSign a != fSign b, fun h => hneg ((signedDividend_neg_iff hb0).1 h), fun h => hpos ?_, ?_⟩
  · rw [fInt_mul_eq_signedDividend]
    exact mul_pos (by omega) (by omega)
  · rw [natAbs_signedDividend]
    simp [fdiv, isNaN_of_finite ha, isNaN_of_finite hb, isInf_of_finite ha, isInf_of_finite hb, hz]

/-- Settles O37: each of the four results is its exact value rounded once, and a value rounded once is a nearest one. -/
theorem arithmeticRoundsToNearestEven : Obligations.ArithmeticRoundsToNearestEven := by
  intro a b ha hb limit sum difference product
  have hadd := fadd_roundsTo ha hb
  have hsub := fsub_roundsTo ha hb
  have hmul := fmul_roundsTo ha hb
  have h149 : 0 < 2 ^ 149 := Nat.two_pow_pos 149
  have hdiv (hb0 : fUnits b ≠ 0) : RoundsTo (fdiv a b) (signedDividend a b * 2 ^ 149) (fUnits b) :=
    fdiv_roundsTo ha hb hb0
  refine ⟨hadd.isFinite_iff_one, hadd.overflow_one, hsub.isFinite_iff_one, hsub.overflow_one, hmul.isFinite_iff h149,
    hmul.overflow h149, fun hb0 => ⟨?_, ?_⟩, fun y _ => ⟨hadd.nearest_one, hsub.nearest_one, ?_, ?_⟩⟩
  · rw [← natAbs_signedDividend a b]
    exact (hdiv hb0).isFinite_iff (Nat.pos_of_ne_zero hb0)
  · rw [← natAbs_signedDividend a b]
    simpa only [signedDividend_neg_iff hb0] using (hdiv hb0).overflow (Nat.pos_of_ne_zero hb0)
  · simpa only [Nat.cast_pow, Nat.cast_ofNat] using hmul.nearest (y := y) h149
  · intro hb0 hfin
    rw [natAbs_mul_fInt_sub, natAbs_mul_fInt_sub]
    exact (hdiv hb0).nearest (Nat.pos_of_ne_zero hb0) hfin

end Sys2Proof.Machine
end

section
/-! PROOFS. The comparisons (O60), the remainder and the conversions (O38). -/

namespace Sys2Proof.Machine

/-! ### The fields of a pattern (R8) -/

theorem toNat_exponent (x : F32) : (x.extractLsb' 23 8).toNat = fMag x / 2 ^ 23 := by
  rw [BitVec.extractLsb'_toNat, Nat.shiftRight_eq_div_pow, fMag]
  omega

theorem toNat_fraction (x : F32) : (x.extractLsb' 0 23).toNat = fMag x % 2 ^ 23 := by
  rw [BitVec.extractLsb'_toNat, Nat.shiftRight_zero, fMag]
  omega

theorem getLsbD_31 (x : F32) : x.getLsbD 31 = fSign x :=
  (BitVec.msb_eq_getLsbD_last x).symm.trans (BitVec.msb_eq_decide x)

theorem exponent_eq_iff (x : F32) (e : BitVec 8) : x.extractLsb' 23 8 = e ↔ fMag x / 2 ^ 23 = e.toNat := by
  rw [← BitVec.toNat_inj, toNat_exponent]

theorem isNaN_iff_fields (x : F32) : isNaN x = true ↔ x.extractLsb' 23 8 = 0xFF#8 ∧ x.extractLsb' 0 23 ≠ 0#23 := by
  have hlt := fMag_lt x
  rw [exponent_eq_iff, ne_eq, ← BitVec.toNat_inj, toNat_fraction, isNaN, decide_eq_true_eq]
  simp only [BitVec.toNat_ofNat]
  omega

theorem isFinite_iff_exponent (x : F32) : isFinite x = true ↔ x.extractLsb' 23 8 ≠ 0xFF#8 := by
  have hlt := fMag_lt x
  rw [ne_eq, exponent_eq_iff, isFinite, decide_eq_true_eq]
  simp only [BitVec.toNat_ofNat]
  omega

theorem fUnits_eq_fields (x : F32) :
    fUnits x = if x.extractLsb' 23 8 = 0x00#8 then (x.extractLsb' 0 23).toNat
      else (2 ^ 23 + (x.extractLsb' 0 23).toNat) * 2 ^ ((x.extractLsb' 23 8).toNat - 1) := by
  rw [toNat_exponent, toNat_fraction, fUnits]
  simp only [exponent_eq_iff, BitVec.toNat_ofNat]
  by_cases hsub : fMag x < 2 ^ 23
  · rw [if_pos hsub, if_pos (by omega)]; omega
  · rw [if_neg hsub, if_neg (by omega)]

/-! ### The infinities -/

theorem fMag_eq_inf_iff (x : F32) : fMag x = 0x7F800000 ↔ x = INF ∨ x = fneg INF := by
  constructor
  · intro h
    cases hs : fSign x with
    | false => exact .inl (f32_ext hs h)
    | true => exact .inr (f32_ext hs h)
  · rintro (rfl | rfl) <;> rfl

theorem isInf_iff (x : F32) : isInf x = true ↔ x = INF ∨ x = fneg INF := by
  rw [isInf, decide_eq_true_eq, fMag_eq_inf_iff]

theorem fKey_INF : fKey INF = 0x7F800000 := by decide

theorem fKey_fneg_INF : fKey (fneg INF) = -0x7F800000 := by decide

/-- The infinities are the two ends of the order of the patterns that are no NaN. -/
theorem fKey_bounds {x : F32} (h : isNaN x = false) : -0x7F800000 ≤ fKey x ∧ fKey x ≤ 0x7F800000 := by
  rw [isNaN, decide_eq_false_iff_not] at h
  unfold fKey
  split <;> omega

theorem fKey_eq_INF_iff (x : F32) : fKey x = 0x7F800000 ↔ x = INF := by
  refine ⟨fun h => ?_, fun h => h ▸ fKey_INF⟩
  unfold fKey at h
  split at h
  · omega
  · next hs => exact f32_ext (Bool.eq_false_of_not_eq_true hs) (by exact_mod_cast h)

theorem fKey_eq_fneg_INF_iff (x : F32) : fKey x = -0x7F800000 ↔ x = fneg INF := by
  refine ⟨fun h => ?_, fun h => h ▸ fKey_fneg_INF⟩
  unfold fKey at h
  split at h
  · next hs => exact f32_ext hs (by exact_mod_cast neg_inj.1 h)
  · omega

/-! ### Comparisons (R9) -/

theorem compare_nan {a b : F32} (h : isNaN a = true ∨ isNaN b = true) :
    flt a b = false ∧ fle a b = false ∧ feq a b = false := by
  rcases h with h | h <;> simp [flt, fle, feq, h]

theorem feq_iff {a b : F32} (ha : isFinite a = true) (hb : isFinite b = true) : feq a b = true ↔ fInt a = fInt b := by
  have hab := fKey_le_iff ha hb
  have hba := fKey_le_iff hb ha
  simp only [feq, isNaN_of_finite ha, isNaN_of_finite hb, Bool.not_false, Bool.and_self, Bool.true_and, decide_eq_true_eq]
  omega

theorem feq_comm (a b : F32) : feq a b = feq b a := by
  unfold feq
  rw [Bool.and_comm (!isNaN a), decide_eq_decide.2 eq_comm]

/-- Comparisons with the infinities of a pattern that is no NaN. -/
theorem compare_inf {a : F32} (ha : isNaN a = false) :
    (flt a INF = true ↔ a ≠ INF) ∧ (flt (fneg INF) a = true ↔ a ≠ fneg INF) ∧
    (fle INF a = true ↔ a = INF) ∧ (fle a (fneg INF) = true ↔ a = fneg INF) ∧
    (feq a INF = true ↔ a = INF) ∧ (feq a (fneg INF) = true ↔ a = fneg INF) ∧
    fle a INF = true ∧ fle (fneg INF) a = true ∧ flt INF a = false ∧ flt a (fneg INF) = false := by
  obtain ⟨hlo, hhi⟩ := fKey_bounds ha
  have hINF : isNaN INF = false := by decide
  have hNEG : isNaN (fneg INF) = false := by decide
  simp only [flt, fle, feq, ha, hINF, hNEG, fKey_INF, fKey_fneg_INF, Bool.not_false, Bool.and_self, Bool.true_and,
    decide_eq_true_eq, decide_eq_false_iff_not, ← fKey_eq_INF_iff a, ← fKey_eq_fneg_INF_iff a, ne_eq]
  refine ⟨?_, ?_, ?_, ?_, trivial, trivial, hhi, hlo, ?_, ?_⟩ <;> omega

theorem getLsbD_fabs_31 (x : F32) : (fabs x).getLsbD 31 = false := by
  have hmask : (0x7FFFFFFF#32).getLsbD 31 = false := by decide
  rw [fabs, BitVec.getLsbD_and, hmask, Bool.and_false]

theorem getLsbD_fabs_of_lt (x : F32) {i : Nat} (hi : i < 31) : (fabs x).getLsbD i = x.getLsbD i := by
  have hmask : ∀ j : Nat, j < 31 → (0x7FFFFFFF#32).getLsbD j = true := by decide
  rw [fabs, BitVec.getLsbD_and, hmask i hi, Bool.and_true]

/-- Settles O60: the fields give class and value, and the order of the fields with the sign is the order of the values. -/
theorem comparisonsOrderTheValues : Obligations.ComparisonsOrderTheValues := by
  intro a b exponent fraction
  refine ⟨isNaN_iff_fields a, isInf_iff a, isFinite_iff_exponent a, fUnits_eq_fields a, by rw [getLsbD_31]; rfl,
    getLsbD_fabs_31 a, fun _ => getLsbD_fabs_of_lt a, compare_nan,
    fun ha hb => ⟨flt_iff ha hb, fle_iff ha hb, feq_iff ha hb⟩, compare_inf, feq_comm a b, rfl, rfl⟩

/-! ### The remainder -/

/-- A finite value is an integer of 24 bits in a binade. -/
theorem exists_fUnits {x : F32} (h : isFinite x = true) : ∃ s e, s < 2 ^ 24 ∧ e ≤ 253 ∧ fUnits x = s * 2 ^ e := by
  rw [isFinite, decide_eq_true_eq] at h
  obtain ⟨s, e, hm, hs, he, hu, -⟩ := exists_significand (fMag x)
  exact ⟨s, e, hs, by omega, hu⟩

/-- The remainder of two finite values is representable: it is a multiple of the finer of their units, and it is below the
divisor and at most the dividend. -/
theorem exists_fUnits_mod {a b : F32} (ha : isFinite a = true) (hb : isFinite b = true) (hb0 : fUnits b ≠ 0) :
    ∃ s e, s < 2 ^ 24 ∧ e ≤ 253 ∧ fUnits a % fUnits b = s * 2 ^ e := by
  obtain ⟨f, i, hf, hi, hfa⟩ := exists_fUnits ha
  obtain ⟨g, j, hg, hj, hgb⟩ := exists_fUnits hb
  have hg0 : 0 < g := Nat.pos_of_ne_zero fun h => hb0 (by rw [hgb, h, Nat.zero_mul])
  rcases le_total i j with hij | hji
  · refine ⟨f % (g * 2 ^ (j - i)), i, (Nat.mod_le _ _).trans_lt hf, hi, ?_⟩
    rw [hfa, hgb, ← Nat.mul_mod_mul_right, Nat.mul_assoc, ← pow_add, Nat.sub_add_cancel hij]
  · refine ⟨f * 2 ^ (i - j) % g, j, (Nat.mod_lt _ hg0).trans hg, hj, ?_⟩
    rw [hfa, hgb, ← Nat.mul_mod_mul_right, Nat.mul_assoc, ← pow_add, Nat.sub_add_cancel hji]

theorem fUnits_packSign_mod {a b : F32} (ha : isFinite a = true) (hb : isFinite b = true) (hb0 : fUnits b ≠ 0) (neg : Bool) :
    fUnits (packSign neg (roundMag (fUnits a % fUnits b) 1)) = fUnits a % fUnits b := by
  obtain ⟨s, e, hs, he, hr⟩ := exists_fUnits_mod ha hb hb0
  rw [hr, fUnits_roundMag neg hs he]

theorem fmodx_of_finite {a b : F32} (ha : isFinite a = true) (hb : isFinite b = true) (hb0 : fUnits b ≠ 0) :
    fmodx a b = packSign (fSign a) (roundMag (fUnits a % fUnits b) 1) := by
  have hz : isZero b = false := decide_eq_false ((fMag_eq_zero_iff hb).not.1 hb0)
  simp [fmodx, isNaN_of_finite ha, isNaN_of_finite hb, isInf_of_finite ha, isInf_of_finite hb, hz]

theorem fSign_fmodx {a b : F32} (ha : isFinite a = true) (hb : isFinite b = true) (hb0 : fUnits b ≠ 0) :
    fSign (fmodx a b) = fSign a := by
  rw [fmodx_of_finite ha hb hb0, fSign_packSign _ (roundMag_lt _ _)]

theorem isFinite_fmodx {a b : F32} (ha : isFinite a = true) (hb : isFinite b = true) (hb0 : fUnits b ≠ 0) :
    isFinite (fmodx a b) = true := by
  apply isFinite_of_fMag_le ha
  rw [fmodx_of_finite ha hb hb0, fMag_packSign _ (roundMag_lt _ _)]
  exact roundMag_le Nat.one_pos ha (by rw [Nat.mul_one]; exact Nat.mod_le _ _)

theorem fInt_fmodx {a b : F32} (ha : isFinite a = true) (hb : isFinite b = true) (hb0 : fUnits b ≠ 0) :
    fInt (fmodx a b) = (fInt a).tmod (fInt b) := by
  have hu : fUnits (fmodx a b) = fUnits a % fUnits b := by
    rw [fmodx_of_finite ha hb hb0, fUnits_packSign_mod ha hb hb0]
  unfold fInt
  rw [fSign_fmodx ha hb hb0, hu, Int.ofNat_tmod]
  cases fSign a <;> cases fSign b <;> simp [Int.neg_tmod, Int.tmod_neg]

/-- A NaN result has the exponent field full and the quiet bit set, whatever its free pattern is. -/
theorem isNaN_nanOf (op : FloatOp) (a b : F32) : isNaN (nanOf op a b) = true := by
  have hexp : (0x7FC00000#32).extractLsb' 23 8 = BitVec.allOnes 8 := by decide
  rw [isNaN_iff_fields, nanOf, BitVec.extractLsb'_or, BitVec.extractLsb'_or]
  refine ⟨by rw [hexp, BitVec.or_allOnes]; rfl, fun h0 => ?_⟩
  have hquiet := congrArg (BitVec.getLsbD · 22) h0
  simp at hquiet

theorem fmodx_INF {a : F32} (ha : isFinite a = true) : fmodx a INF = a := by
  have h1 : isNaN INF = false := by decide
  have h2 : isInf INF = true := by decide
  have h3 : isZero INF = false := by decide
  simp [fmodx, isNaN_of_finite ha, isInf_of_finite ha, h1, h2, h3]

theorem isNaN_fmodx_zero {a b : F32} (hb0 : fUnits b = 0) (hb : isFinite b = true) : isNaN (fmodx a b) = true := by
  have hz : isZero b = true := decide_eq_true ((fMag_eq_zero_iff hb).1 hb0)
  unfold fmodx
  split
  · exact isNaN_nanOf _ _ _
  · rw [hz, Bool.or_true, if_pos rfl]
    exact isNaN_nanOf _ _ _

/-! ### Conversions -/

theorem fSign_float (n : Nat) : fSign (float n) = false := fSign_packSign _ (roundMag_lt _ _)

theorem fInt_float {n : Nat} (hn : n ≤ 2 ^ 24) : fInt (float n) = n * 2 ^ 149 := by
  have hu : fUnits (float n) = n * 2 ^ 149 := by
    rcases hn.lt_or_eq with hlt | heq
    · exact fUnits_roundMag false hlt (by norm_num)
    · have h := fUnits_roundMag (f := 1) (e := 173) false (by norm_num) (by norm_num)
      have hpow : 2 ^ 24 * 2 ^ 149 = 1 * 2 ^ 173 := by norm_num
      rw [float, heq, hpow, h]
  rw [fInt, fSign_float, if_neg Bool.false_ne_true, hu]
  push_cast
  rfl

theorem fceil_spec (q : F32) : fInt q ≤ fceil q * 2 ^ 149 ∧ (fceil q - 1) * 2 ^ 149 < fInt q := by
  unfold fceil
  omega

/-- Settles O38: the remainder needs no rounding, since binary32 represents it. -/
theorem remainderAndConversionsAreExact : Obligations.RemainderAndConversionsAreExact :=
  ⟨fun _ _ ha hb hb0 => ⟨fInt_fmodx ha hb hb0, fSign_fmodx ha hb hb0, isFinite_fmodx ha hb hb0⟩,
    fun _ _ ha => ⟨fmodx_INF ha, isNaN_fmodx_zero⟩,
    fun n hn => ⟨fInt_float hn, fSign_float n⟩, fun q _ => fceil_spec q⟩

end Sys2Proof.Machine
end

section
/-! PROOFS. What performing one request can do, once for every request, as the relation `Effect`; the statements on RUN, the
sticky bits, the configuration and CLK follow from its cases. -/

namespace Sys2Proof.Machine

/-- What performing the request `i` in the state `s` can leave. -/
inductive Effect (i : Input) (s : State) : State → Prop
  /-- STATUS, the configuration and CLK stay. -/
  | quiet (level : Bool) (q : List Event) (n : Word) (d : Option Word) :
      Effect i s { s with rst := level, fifo := q, degcnt := n, rdata := d }
  /-- One error is raised (R250), with ERRCODE where it is CFGERR (R222). -/
  | raised (e : Err) (code : Word) (d : Option Word) :
      Effect i s { s with status := stickySet e s.status, errcode := code, rdata := d }
  /-- Errors are acknowledged (R259). -/
  | acknowledged (w : Word) (hi : i = .write 0x00C#12 2#2 w) : Effect i s (acknowledge w s)
  /-- The configuration is written while no session runs (R49). -/
  | configured (hrun : s.status.run = false) (c : BitVec 8) (sr m : Word) (v f a : F32) (o : List OscSlot) :
      Effect i s { s with ctrl := c, srate := sr, clkmod := m, volume := v, cutoff := f, alpha := a, osc := o }
  /-- A session begins (R223). -/
  | started (w : Word) (hi : i = .write 0x010#12 2#2 w) (hw : decodeCmd w = .start) (hrun : s.status.run = false)
      (hv : validate s = none) : Effect i s (startSession s)
  /-- STOP (R224). -/
  | stopped (w : Word) (hi : i = .write 0x010#12 2#2 w) (hw : decodeCmd w = .stop) : Effect i s (setRun false s)
  /-- A frame of a running session (R200, R201). -/
  | framed (t : State) (hrun : s.status.run = true) (ht : frame s = .next t) : Effect i s t
  /-- The assertion of `rst`, or SOFTRESET (R280, R284). -/
  | reset (level : Bool)
      (hi : i = .rst true ∨ ∃ w, i = .write 0x010#12 2#2 w ∧ decodeCmd w = .softreset) : Effect i s (resetAll level s)

namespace Effect

variable {i : Input} {s t : State}

theorem same : Effect i s s := .quiet s.rst s.fifo s.degcnt s.rdata

theorem drives (v : Word) : Effect i s (drives v s) := .quiet s.rst s.fifo s.degcnt (some v)

theorem raise (e : Err) : Effect i s (raise e s) := .raised e s.errcode s.rdata

end Effect

section
variable {i : Input} {s t : State}

theorem effect_setRst (level : Bool) : Effect (.rst level) s (setRst level s) := by
  cases level with
  | true => exact .reset true (.inl rfl)
  | false => exact .quiet false s.fifo s.degcnt s.rdata

theorem effect_heldInReset : Effect i s (heldInReset i s) := by
  cases i with
  | read o z => exact .drives 0#32
  | _ => exact .same

/-! ### Operations of the opcode table -/

theorem effect_frameTick (ht : frameTick s = .next t) : Effect i s t := by
  cases hr : s.status.run with
  | true => exact .framed t hr ((frameTick_running hr).symm.trans ht)
  | false => exact Host.Outcome.next.inj ((frameTick_stopped hr).symm.trans ht) ▸ .same

theorem effect_pushWord (w : Word) : Effect i s (pushWord w s) := by
  obtain he | ⟨_, he⟩ | ⟨_, e, he⟩ := pushWord_cases w s <;> rw [he]
  · exact .raise .evterr
  · exact .raise .evqovf
  · exact .quiet s.rst (s.fifo ++ [e]) s.degcnt s.rdata

theorem effect_startOp {w : Word} (hw : decodeCmd w = .start) : Effect (.write 0x010#12 2#2 w) s (startOp s) := by
  obtain ⟨_, he⟩ | ⟨_, e, _, he⟩ | ⟨hrun, hv, he⟩ := startOp_cases s <;> rw [he]
  · exact .raise .cmderr
  · exact .raised .cfgerr ((e.slot ++ e.code).setWidth 32) s.rdata
  · exact .started w rfl hw hrun hv

theorem effect_decodeCmd {w : Word} (ht : exec (decodeCmd w) s = .next t) : Effect (.write 0x010#12 2#2 w) s t := by
  obtain hw | hw | hw | hw | hw | hw | hw := decodeCmd_cases w <;> rw [hw] at ht
  · exact Host.Outcome.next.inj ht ▸ effect_startOp hw
  · exact Host.Outcome.next.inj ht ▸ .stopped w rfl hw
  · exact effect_frameTick ht
  · exact Host.Outcome.next.inj ht ▸ .quiet s.rst [] s.degcnt s.rdata
  · exact Host.Outcome.next.inj ht ▸ .quiet s.rst s.fifo 0#32 s.rdata
  · exact Host.Outcome.next.inj ht ▸ .reset s.rst (.inr ⟨w, rfl, hw⟩)
  · exact Host.Outcome.next.inj ht ▸ .raise .cmderr

theorem effect_requestInstr {op : Instr} (hop : requestInstr i = some op) (ht : exec op s = .next t) : Effect i s t := by
  obtain rfl | ⟨w, rfl⟩ | ⟨w, rfl, rfl⟩ := requestInstr_cases hop
  · exact effect_frameTick ht
  · exact Host.Outcome.next.inj ht ▸ effect_pushWord w
  · exact effect_decodeCmd ht

/-! ### Plain accesses -/

/-- STATUS stands at word 3 of the window alone (R90). -/
theorem eq_of_regAtWord_status {nOsc k : Nat} (h : regAtWord nOsc k = some .status) : k = 3 := by
  have plain : ∀ k, k < 0x40 → plainRegs[k]? = some .status → k = 3 := by decide
  have slot : ∀ i j, slotReg nOsc i j ≠ some .status := by
    intro i j
    unfold slotReg
    split
    · simp
    · split <;> simp
  unfold regAtWord at h
  split at h
  · exact plain k ‹_› h
  · split at h
    · exact absurd h (slot _ _)
    · repeat' split at h
      all_goals simp at h

theorem eq_of_regOf_status {o : BitVec 12} {z : BitVec 2} (h : regOf s o z = some .status) : o = 0x00C#12 ∧ z = 2#2 := by
  unfold regOf at h
  split at h
  · next hdef =>
    obtain ⟨hz, ho⟩ : z = 2#2 ∧ o.toNat % 4 = 0 := by simpa [accessDefined] using hdef
    have hk := eq_of_regAtWord_status h
    exact ⟨BitVec.eq_of_toNat_eq (show o.toNat = 12 by omega), hz⟩
  · exact absurd h (by simp)

/-- A store acknowledges errors, writes the configuration, or stores nothing. -/
theorem effect_storeReg {o : BitVec 12} {z : BitVec 2} {r : Reg} (hreg : regOf s o z = some r)
    (hfree : r.locked = false ∨ s.status.run = false) (w : Word) : Effect (.write o z w) s (storeReg r w s) := by
  cases r with
  | status =>
    obtain ⟨rfl, rfl⟩ := eq_of_regOf_status hreg
    exact .acknowledged w rfl
  | ctrl | srate | clkmod | volume | cutoff | alpha | oscKind | oscFreq | oscDepth =>
    rw [(storeReg_of_locked rfl w s).1]
    exact .configured (hfree.resolve_left (by simp [Reg.locked])) ..
  | _ => exact .same

theorem effect_busWrite (o : BitVec 12) (z : BitVec 2) (w : Word) : Effect (.write o z w) s (busWrite o z w s) := by
  unfold busWrite
  split
  · next r hreg =>
    obtain ⟨_, he⟩ | ⟨_, _, he⟩ | ⟨_, hfree, he⟩ := writeReg_cases r w s <;> rw [he]
    · exact .raise .accerr
    · exact .raise .lockerr
    · exact effect_storeReg hreg hfree w
  · exact .raise .accerr

theorem effect_plainAccess : Effect i s (plainAccess i s) := by
  cases i with
  | read o z =>
    show Effect _ s (busRead o z s)
    unfold busRead
    split
    · exact .drives _
    · exact .raised .accerr s.errcode (some 0#32)
  | write o z w => exact effect_busWrite o z w
  | _ => exact .same

/-! ### The step -/

theorem effect_perform (ht : perform i s = .next t) : Effect i s t := by
  obtain ⟨l, rfl, he⟩ | ⟨_, he⟩ | ⟨_, op, hop, he⟩ | ⟨_, _, he⟩ := perform_cases i s <;> rw [he] at ht
  · exact Host.Outcome.next.inj ht ▸ effect_setRst l
  · exact Host.Outcome.next.inj ht ▸ effect_heldInReset
  · exact effect_requestInstr hop ht
  · exact Host.Outcome.next.inj ht ▸ effect_plainAccess

theorem effect_step {rest : List Input} (hp : s.pending = i :: rest) (ht : step s = .next t) :
    Effect i (takeRequest rest s) t :=
  effect_perform (by simpa only [step, hp] using ht)

/-- A step with nothing requested ends the pulses on the ports. -/
theorem step_effect_cases (ht : step s = .next t) :
    t = restPorts s ∨ ∃ i rest, Effect i (takeRequest rest s) t := by
  obtain ⟨_, he⟩ | ⟨i, rest, hp, _⟩ := step_cases s
  · exact .inl (Host.Outcome.next.inj (ht.symm.trans he))
  · exact .inr ⟨i, rest, effect_step hp ht⟩

/-! ### Frames -/

/-- A frame leaves STATUS, but for DEGEN, which it may set (R162). -/
theorem status_frame (ht : frame s = .next t) : t.status = s.status ∨ t.status = stickySet .degen s.status := by
  obtain ⟨_, rfl⟩ | ⟨_, rfl⟩ | ⟨_, rfl⟩ := frame_eq_next.1 ht <;> rw [finishFrame_frame]
  · exact .inl rfl
  · unfold fmStage noteDegeneracy
    split
    · exact .inr rfl
    · exact .inl rfl
  · rw [polyStage_frame]
    exact .inl rfl

end

end Sys2Proof.Machine
end

section
/-! PROOFS. CLK is always `float n` for some `n ≤ 2^24` (O53): the clock advance maps such patterns to such patterns, and
every other effect of a step keeps CLK or puts `+0.0` there. -/

namespace Sys2Proof.Machine

/-! ### The clock's patterns are the integers up to 2^24 (R31) -/

theorem fUnits_float {n : Nat} (hn : n ≤ 2 ^ 24) : fUnits (float n) = n * 2 ^ 149 := by
  rw [← natAbs_fInt, fInt_float hn]
  exact Int.natAbs_natCast (n * 2 ^ 149)

theorem fMag_float (n : Nat) : fMag (float n) = roundMag (n * 2 ^ 149) 1 := fMag_packSign _ (roundMag_lt _ _)

theorem isFinite_float {n : Nat} (hn : n ≤ 2 ^ 24) : isFinite (float n) = true := by
  rw [isFinite, decide_eq_true_eq, fMag_float, roundMag_lt_inf_iff Nat.one_pos]
  omega

/-- 2^24 + 1 is the first integer that binary32 does not represent, and it rounds down to even. -/
theorem float_two_pow_24_succ : float (2 ^ 24 + 1) = float (2 ^ 24) := by decide

theorem exists_float_succ {n : Nat} (hn : n ≤ 2 ^ 24) : ∃ k, k ≤ 2 ^ 24 ∧ float (n + 1) = float k := by
  rcases hn.lt_or_eq with hlt | rfl
  · exact ⟨n + 1, hlt, rfl⟩
  · exact ⟨2 ^ 24, le_rfl, float_two_pow_24_succ⟩

theorem isClock_float {n : Nat} (hn : n ≤ 2 ^ 24) : isClock (float n) = true := by
  have hmag : fMag (float n) ≤ fMag (float (2 ^ 24)) := by
    rw [← fUnits_le_iff (isFinite_float hn) (isFinite_float le_rfl), fUnits_float hn, fUnits_float le_rfl]
    exact Nat.mul_le_mul_right _ hn
  have htop : fMag (float (2 ^ 24)) = 0x4B800000 := by decide
  have hpos : ¬ 2 ^ 31 ≤ (float n).toNat := of_decide_eq_false (fSign_float n)
  have hnat : (float n).toNat = fMag (float n) := (Nat.mod_eq_of_lt (not_le.1 hpos)).symm
  rw [isClock, Bool.and_eq_true, decide_eq_true_eq, decide_eq_true_eq]
  exact ⟨by omega, by rw [fUnits_float hn, Nat.mul_mod_left]⟩

theorem exists_float_of_isClock {x : F32} (hx : isClock x = true) : ∃ n, n ≤ 2 ^ 24 ∧ x = float n := by
  rw [isClock, Bool.and_eq_true, decide_eq_true_eq, decide_eq_true_eq] at hx
  obtain ⟨htop, hint⟩ := hx
  have hsign : fSign x = false := decide_eq_false (by omega)
  have hmag : fMag x ≤ fMag 0x4B800000#32 := by
    have h24 : fMag 0x4B800000#32 = 0x4B800000 := by decide
    rw [h24, fMag]; omega
  have hfin : isFinite x = true := isFinite_of_fMag_le (by decide) hmag
  obtain ⟨n, hn⟩ := Nat.dvd_of_mod_eq_zero hint
  have hle : 2 ^ 149 * n ≤ 2 ^ 149 * 2 ^ 24 := hn ▸ (fUnits_le_iff hfin (by decide)).2 hmag
  refine ⟨n, Nat.le_of_mul_le_mul_left hle (Nat.two_pow_pos 149), ?_⟩
  rw [float, Nat.mul_comm, ← hn, roundMag_fUnits hfin, ← hsign, packSign_fields]

/-! ### The clock advance (R208) -/

/-- The sum of two non-negative integers is rounded once, as their exact sum is by `float`. -/
theorem fadd_float_one {n : Nat} (hn : n ≤ 2 ^ 24) : fadd (float n) ONE = float (n + 1) := by
  have hone : ONE = float 1 := by decide
  have hsum : fInt (float n) + fInt (float 1) = ((n + 1) * 2 ^ 149 : Nat) := by
    rw [fInt_float hn, fInt_float (by norm_num)]
    push_cast
    ring
  have hpos : (((n + 1) * 2 ^ 149 : Nat) : Int) ≠ 0 := by positivity
  have hneg : ¬ (((n + 1) * 2 ^ 149 : Nat) : Int) < 0 := not_lt.2 (Int.natCast_nonneg _)
  have hfn := isFinite_float hn
  have hf1 := isFinite_float (n := 1) (by norm_num)
  rw [hone, fadd, isNaN_of_finite hfn, isNaN_of_finite hf1, isInf_of_finite hfn, isInf_of_finite hf1, hsum, if_neg hpos,
    Int.natAbs_natCast, decide_eq_false hneg]
  rfl

theorem fmodx_float {k m : Nat} (hk : k ≤ 2 ^ 24) (hm : m ≤ 2 ^ 24) (hm0 : m ≠ 0) :
    fmodx (float k) (float m) = float (k % m) := by
  have hdiv : fUnits (float m) ≠ 0 := by rw [fUnits_float hm]; positivity
  rw [fmodx_of_finite (isFinite_float hk) (isFinite_float hm) hdiv, fSign_float, fUnits_float hk, fUnits_float hm,
    Nat.mul_mod_mul_right]
  rfl

theorem isClock_advance {clkmod : Word} {clk : F32} (hmod : clkmod.toNat ≤ 2 ^ 24) (hclk : isClock clk = true) :
    isClock (advance clkmod clk) = true := by
  obtain ⟨n, hn, rfl⟩ := exists_float_of_isClock hclk
  obtain ⟨k, hk, hsucc⟩ := exists_float_succ hn
  rw [advance, fadd_float_one hn, hsucc]
  split
  · exact isClock_float hk
  · next hne =>
    have hm0 : clkmod.toNat ≠ 0 := fun h => hne (BitVec.eq_of_toNat_eq h)
    rw [fmodx_float hk hmod hm0]
    exact isClock_float ((Nat.mod_le _ _).trans hk)

/-! ### Frames and steps -/

section
variable {s t : State}

theorem clockOk_zero (h : s.clk = ZERO) : s.clockOk := by
  rw [State.clockOk, h]; decide

theorem clkmod_filterStage (s : State) : (filterStage s).clkmod = s.clkmod := by
  unfold filterStage; split <;> rfl

theorem clk_clockStage_cases (s : State) :
    (clockStage s).clk = s.clk ∨ (clockStage s).clk = advance s.clkmod s.clk := by
  unfold clockStage
  split
  · exact .inl rfl
  · exact .inr rfl

/-- The end of a frame advances the clock or leaves it (R207). -/
theorem clk_finishFrame_cases (s : State) :
    (finishFrame s).clk = s.clk ∨ (finishFrame s).clk = advance s.clkmod s.clk := by
  have hclk : (clampStage (filterStage (volumeStage s))).clk = s.clk := clk_filterStage (volumeStage s)
  have hmod : (clampStage (filterStage (volumeStage s))).clkmod = s.clkmod := clkmod_filterStage (volumeStage s)
  have hcases := clk_clockStage_cases (clampStage (filterStage (volumeStage s)))
  rw [hclk, hmod] at hcases
  exact hcases

theorem clockOk_finishFrame (h : s.clockOk) (hmod : s.clkmod.toNat ≤ 2 ^ 24) : (finishFrame s).clockOk := by
  unfold State.clockOk at *
  obtain he | he := clk_finishFrame_cases s <;> rw [he]
  · exact h
  · exact isClock_advance hmod h

theorem clockOk_polyStage (h : s.clockOk) : (polyStage s).clockOk := by
  unfold polyStage voiceStage
  rw [drain_frame]
  split
  · exact clockOk_zero rfl
  · exact h

theorem clockOk_frame (h : s.clockOk) (hmod : s.clkmod.toNat ≤ 2 ^ 24) (ht : frame s = .next t) : t.clockOk := by
  obtain ⟨_, rfl⟩ | ⟨_, rfl⟩ | ⟨_, rfl⟩ := frame_eq_next.1 ht
  · exact clockOk_finishFrame (s := mixStage s) h hmod
  · refine clockOk_finishFrame ?_ ?_ <;> rw [fmStage_frame]
    · exact h
    · exact hmod
  · exact clockOk_finishFrame (clockOk_polyStage h) (by rw [polyStage_frame]; exact hmod)

theorem Effect.clockOk {i : Input} (he : Effect i s t) (h : s.clockOk)
    (hmod : s.status.run = true → s.clkmod.toNat ≤ 2 ^ 24) : t.clockOk := by
  cases he with
  | quiet | raised | acknowledged | configured | stopped => exact h
  | started => exact clockOk_zero (by rw [startSession_frame])
  | framed _ hrun ht => exact clockOk_frame h (hmod hrun) ht
  | reset => exact clockOk_zero rfl

end

/-- Settles O53: only a frame computes a new CLK, and the advance of an integer pattern is one. -/
theorem clockStaysInteger : Obligations.ClockStaysInteger := by
  refine ⟨clockOk_zero rfl, fun s t h hmod ht => ?_⟩
  obtain rfl | ⟨i, rest, he⟩ := step_effect_cases ht
  · exact h
  · exact he.clockOk h hmod

end Sys2Proof.Machine
end

section
/-! PROOFS. What a step can do to STATUS and to the configuration (O56, O57, O58), each read off the cases of `Effect`. -/

namespace Sys2Proof.Machine

/-! ### The sticky bits (R24, R251) -/

/-- The bit of STATUS that an error sets (R93). -/
def stickyBit : Err → Nat
  | .cfgerr => 8
  | .lockerr => 9
  | .evqovf => 10
  | .evterr => 11
  | .cmderr => 12
  | .accerr => 13
  | .degen => 14

/-- The sticky bit of an error, as STATUS stores it. -/
def sticky (f : Status) : Err → Bool
  | .cfgerr => f.cfgerr
  | .lockerr => f.lockerr
  | .evqovf => f.evqovf
  | .evterr => f.evterr
  | .cmderr => f.cmderr
  | .accerr => f.accerr
  | .degen => f.degen

theorem exists_stickyBit {b : Nat} (hlo : 8 ≤ b) (hhi : b ≤ 14) : ∃ e, stickyBit e = b := by
  interval_cases b
  · exact ⟨.cfgerr, rfl⟩
  · exact ⟨.lockerr, rfl⟩
  · exact ⟨.evqovf, rfl⟩
  · exact ⟨.evterr, rfl⟩
  · exact ⟨.cmderr, rfl⟩
  · exact ⟨.accerr, rfl⟩
  · exact ⟨.degen, rfl⟩

theorem getLsbD_bitWord {i : Nat} (hi : i < 32) (b : Bool) (j : Nat) :
    (bitWord i b).getLsbD j = (b && decide (i = j)) := by
  cases b with
  | false => simp [bitWord]
  | true =>
    simp only [bitWord, if_true, BitVec.getLsbD_ofNat, Nat.testBit_two_pow, Bool.true_and, Bool.and_eq_right_iff_imp,
      decide_eq_true_eq]
    omega

theorem getLsbD_statusWord (s : State) (e : Err) : (statusWord s).getLsbD (stickyBit e) = sticky s.status e := by
  simp (disch := decide) only [statusWord, BitVec.getLsbD_or, getLsbD_bitWord]
  cases e <;> simp [stickyBit, sticky]

theorem sticky_stickySet (e : Err) (f : Status) (e' : Err) :
    sticky (stickySet e f) e' = (sticky f e' || decide (e = e')) := by
  cases e <;> cases e' <;> simp [sticky, stickySet]

theorem sticky_stickyClear (w : Word) (f : Status) (e : Err) :
    sticky (stickyClear w f) e = (sticky f e && !w.getLsbD (stickyBit e)) := by
  cases e <;> rfl

theorem sticky_run (b : Bool) (f : Status) (e : Err) : sticky { f with run := b } e = sticky f e := by
  cases e <;> rfl

theorem sticky_default (e : Err) : sticky {} e = false := by
  cases e <;> rfl

/-! ### STATUS -/

section
variable {i : Input} {s t : State}

/-- STATUS changes by RUN alone, by one error, by an acknowledgement, or by a reset. -/
theorem Effect.status_cases (he : Effect i s t) :
    (∃ b, t.status = { s.status with run := b }) ∨ (∃ e, t.status = stickySet e s.status) ∨
      (∃ w, i = .write 0x00C#12 2#2 w ∧ t.status = stickyClear w s.status) ∨
      (t.status = {} ∧ (i = .rst true ∨ ∃ w, i = .write 0x010#12 2#2 w ∧ decodeCmd w = .softreset)) := by
  cases he with
  | quiet | configured => exact .inl ⟨s.status.run, rfl⟩
  | raised e => exact .inr (.inl ⟨e, rfl⟩)
  | acknowledged w hi => exact .inr (.inr (.inl ⟨w, hi, rfl⟩))
  | started => exact .inl ⟨true, by rw [startSession_frame]⟩
  | stopped => exact .inl ⟨false, rfl⟩
  | framed _ _ ht =>
    obtain hs | hs := status_frame ht
    · exact .inl ⟨s.status.run, hs⟩
    · exact .inr (.inl ⟨.degen, hs⟩)
  | reset _ hi => exact .inr (.inr (.inr ⟨rfl, hi⟩))

theorem run_frame (ht : frame s = .next t) : t.status.run = s.status.run := by
  obtain hs | hs := status_frame ht <;> rw [hs]
  exact run_stickySet .degen s.status

/-- RUN becomes 1 by a successful START alone (R24, R221). -/
theorem Effect.run_set (he : Effect i s t) (hs : s.status.run = false) (ht : t.status.run = true) :
    validate s = none ∧ ∃ w, i = .write 0x010#12 2#2 w ∧ decodeCmd w = .start := by
  cases he with
  | started w hi hw _ hv => exact ⟨hv, w, hi, hw⟩
  | quiet | acknowledged | configured => exact elim_of_eq_false hs ht
  | raised e => exact elim_of_eq_false ((run_stickySet e s.status).trans hs) ht
  | framed _ hrun => exact elim_of_eq_false hs hrun
  | stopped | reset => exact elim_of_eq_false rfl ht

/-- RUN becomes 0 by STOP and by a reset alone (R24). -/
theorem Effect.run_cleared (he : Effect i s t) (hs : s.status.run = true) (ht : t.status.run = false) :
    i = .rst true ∨ ∃ w, i = .write 0x010#12 2#2 w ∧ (decodeCmd w = .stop ∨ decodeCmd w = .softreset) := by
  cases he with
  | stopped w hi hw => exact .inr ⟨w, hi, .inl hw⟩
  | reset _ hi => exact hi.imp_right fun ⟨w, hi, hw⟩ => ⟨w, hi, .inr hw⟩
  | quiet | acknowledged => exact elim_of_eq_false ht hs
  | raised e => exact elim_of_eq_false ht ((run_stickySet e s.status).trans hs)
  | framed _ _ hf => exact elim_of_eq_false ht ((run_frame hf).trans hs)
  | configured hrun | started _ _ _ hrun => exact elim_of_eq_false hrun hs

/-- A sticky bit is cleared by an acknowledgement or a reset alone (R24). -/
theorem Effect.sticky_cleared (he : Effect i s t) {e : Err} (hs : sticky s.status e = true)
    (ht : sticky t.status e = false) :
    i = .rst true ∨ (∃ w, i = .write 0x00C#12 2#2 w ∧ w.getLsbD (stickyBit e) = true) ∨
      ∃ w, i = .write 0x010#12 2#2 w ∧ decodeCmd w = .softreset := by
  obtain ⟨b, hf⟩ | ⟨e', hf⟩ | ⟨w, hi, hf⟩ | ⟨-, hi⟩ := he.status_cases
  · rw [hf, sticky_run] at ht
    exact elim_of_eq_false ht hs
  · rw [hf, sticky_stickySet, hs] at ht
    exact elim_of_eq_false ht rfl
  · rw [hf, sticky_stickyClear, hs, Bool.true_and, Bool.not_eq_false'] at ht
    exact .inr (.inl ⟨w, hi, ht⟩)
  · exact hi.imp_right .inr

/-- A sticky bit is set by the raising of its own error alone (R250). -/
theorem Effect.sticky_set (he : Effect i s t) {e : Err} (hs : sticky s.status e = false)
    (ht : sticky t.status e = true) : t.status = stickySet e s.status := by
  obtain ⟨b, hf⟩ | ⟨e', hf⟩ | ⟨w, _, hf⟩ | ⟨hf, -⟩ := he.status_cases
  · rw [hf, sticky_run] at ht
    exact elim_of_eq_false hs ht
  · rw [hf, sticky_stickySet, hs, Bool.false_or, decide_eq_true_eq] at ht
    exact ht ▸ hf
  · rw [hf, sticky_stickyClear, hs, Bool.false_and] at ht
    exact elim_of_eq_false rfl ht
  · rw [hf, sticky_default] at ht
    exact elim_of_eq_false rfl ht

/-- No effect sets two sticky bits (R255). -/
theorem Effect.sticky_set_unique (he : Effect i s t) {e e' : Err} (hs : sticky s.status e = false)
    (ht : sticky t.status e = true) (hs' : sticky s.status e' = false) (ht' : sticky t.status e' = true) : e = e' := by
  rw [he.sticky_set hs ht, sticky_stickySet, hs', Bool.false_or, decide_eq_true_eq] at ht'
  exact ht'

/-! ### The configuration (R49) -/

/-- The registers of the locked set are the same in both states. -/
def SameConfig (s t : State) : Prop :=
  t.ctrl = s.ctrl ∧ t.srate = s.srate ∧ t.clkmod = s.clkmod ∧ t.volume = s.volume ∧ t.cutoff = s.cutoff ∧
    t.alpha = s.alpha ∧ t.osc = s.osc

theorem sameConfig_refl (s : State) : SameConfig s s := ⟨rfl, rfl, rfl, rfl, rfl, rfl, rfl⟩

theorem sameConfig_frame (ht : frame s = .next t) : SameConfig s t := by
  obtain ⟨_, rfl⟩ | ⟨_, rfl⟩ | ⟨_, rfl⟩ := frame_eq_next.1 ht <;> rw [finishFrame_frame]
  · exact sameConfig_refl s
  · rw [fmStage_frame]
    exact sameConfig_refl s
  · rw [polyStage_frame]
    exact sameConfig_refl s

/-- Within a session nothing but a reset, which ends it, writes the configuration. -/
theorem Effect.sameConfig (he : Effect i s t) (hs : s.status.run = true) (ht : t.status.run = true) : SameConfig s t := by
  cases he with
  | quiet | raised | acknowledged | stopped => exact sameConfig_refl s
  | framed _ _ hf => exact sameConfig_frame hf
  | configured hrun | started _ _ _ hrun => exact elim_of_eq_false hrun hs
  | reset => exact elim_of_eq_false rfl ht

end

/-! ### The statements -/

/-- Settles O56: of the effects of a request, START alone sets RUN, and STOP and the two resets alone clear it. -/
theorem runChangesOnlyByCommand : Obligations.RunChangesOnlyByCommand :=
  fun _ _ _ _ hp ht => ⟨(effect_step hp ht).run_set, (effect_step hp ht).run_cleared⟩

/-- Settles O57: bits 8 to 14 are the sticky bits, and a request raises at most one error. -/
theorem stickyBits : Obligations.StickyBits := by
  intro s t i rest b c hp ht hb hb' hc hc'
  have he := effect_step hp ht
  obtain ⟨e, rfl⟩ := exists_stickyBit hb hb'
  obtain ⟨e', rfl⟩ := exists_stickyBit hc hc'
  simp only [getLsbD_statusWord]
  exact ⟨he.sticky_cleared, fun h1 h2 h3 h4 => congrArg stickyBit (he.sticky_set_unique h1 h2 h3 h4)⟩

/-- Settles O58: a write of the configuration, and a START, take effect only while no session runs. -/
theorem configurationIsLocked : Obligations.ConfigurationIsLocked := by
  intro s t hs ht hstep
  obtain rfl | ⟨i, rest, he⟩ := step_effect_cases hstep
  · exact sameConfig_refl s
  · exact he.sameConfig hs ht

end Sys2Proof.Machine
end

section
/-! PROOFS. The wire `dp` is not observable (O59): every operation answers with states equal but for `dp` where its operands
are, and a frame, which writes `dp` before it reads it, answers with the same state. -/

namespace Sys2Proof.Machine

/-- The state with another value on the wire. -/
def withWire (d : F32) (s : State) : State := { s with dp := d }

/-- Two results agree but for the value on the wire. -/
def EqualButWire (r r' : Result) : Prop :=
  (∀ t, r = .next t → ∃ e, r' = .next (withWire e t)) ∧ ∀ e, r = .fault e → r' = .fault e

theorem equalButWire_refl (r : Result) : EqualButWire r r := ⟨fun t h => ⟨t.dp, h⟩, fun _ h => h⟩

theorem equalButWire_next (d : F32) (s : State) : EqualButWire (.next s) (.next (withWire d s)) :=
  ⟨fun _ h => ⟨d, Host.Outcome.next.inj h ▸ rfl⟩, fun _ h => nomatch h⟩

/-- The form in which an operation that hands the wire through is shown to agree. -/
theorem equalButWire_of_eq {d : F32} {t t' : State} (h : t' = withWire d t) : EqualButWire (.next t) (.next t') :=
  h ▸ equalButWire_next d t

section
variable (d : F32) (s : State)

/-! ### Frames write the wire before they read it -/

theorem ctrl_withWire : (withWire d s).ctrl = s.ctrl := rfl

theorem mixStage_withWire : mixStage (withWire d s) = mixStage s := rfl

theorem fmStage_withWire : fmStage (withWire d s) = fmStage s := by
  have hdeg : fmDegenerate (clearFifo (withWire d s)) = fmDegenerate (clearFifo s) := rfl
  unfold fmStage noteDegeneracy
  rw [hdeg]
  split <;> rfl

theorem applyEvent_withWire (e : Event) : applyEvent (withWire d s) e = withWire d (applyEvent s e) := by
  cases e with
  | on n v => rfl
  | off n v =>
    have hact : (voiceAt (withWire d s) n).active = (voiceAt s n).active := rfl
    simp only [applyEvent, noteOffOp, hact]
    split <;> rfl

theorem drain_withWire : drain (withWire d s) = withWire d (drain s) :=
  List.foldl_hom (withWire d) (l := s.fifo) (init := clearFifo s) (applyEvent_withWire d)

theorem voiceStage_withWire : voiceStage (withWire d s) = voiceStage s := rfl

theorem polyStage_withWire : polyStage (withWire d s) = polyStage s := by
  rw [polyStage, drain_withWire, voiceStage_withWire, polyStage]

theorem frame_withWire : frame (withWire d s) = frame s := by
  simp only [frame, modeStage, ctrl_withWire, mixStage_withWire, fmStage_withWire, polyStage_withWire]

/-! ### Operations -/

theorem equalButWire_frameTick : EqualButWire (frameTick s) (frameTick (withWire d s)) := by
  cases hr : s.status.run with
  | true =>
    rw [frameTick_running hr, frameTick_running (s := withWire d s) hr, frame_withWire]
    exact equalButWire_refl _
  | false =>
    rw [frameTick_stopped hr, frameTick_stopped (s := withWire d s) hr]
    exact equalButWire_next d s

theorem enqueue_withWire (e : Event) : enqueue e (withWire d s) = withWire d (enqueue e s) :=
  (apply_ite (withWire d) _ (raise .evqovf s) (pushTail e s)).symm

theorem pushWord_withWire (w : Word) : pushWord w (withWire d s) = withWire d (pushWord w s) := by
  unfold pushWord
  split
  · exact enqueue_withWire d s _
  · exact enqueue_withWire d s _
  · rfl

theorem alphaStage_withWire : alphaStage (withWire d s) = withWire d (alphaStage s) :=
  (apply_ite (withWire d) _ (deriveAlpha s) s).symm

theorem constantsStage_withWire : constantsStage (withWire d s) = withWire d (constantsStage s) :=
  (apply_ite (withWire d) _ (peakStage { s with cperiod := BitVec.ofNat 32 (combinedPeriod s) })
    { s with cperiod := 0#32, peak := ZERO }).symm

theorem startSession_withWire : startSession (withWire d s) = withWire d (startSession s) :=
  calc startSession (withWire d s)
      = setRun true (constantsStage (alphaStage (withWire d (clearSession s)))) := rfl
    _ = setRun true (withWire d (constantsStage (alphaStage (clearSession s)))) := by
        rw [alphaStage_withWire, constantsStage_withWire]
    _ = withWire d (startSession s) := rfl

theorem startOp_withWire : startOp (withWire d s) = withWire d (startOp s) := by
  have hrun : (withWire d s).status.run = s.status.run := rfl
  have hvalid : validate (withWire d s) = validate s := rfl
  simp only [startOp, hrun, hvalid, startSession_withWire]
  split
  · rfl
  · split <;> rfl

theorem equalButWire_decodeCmd (w : Word) : EqualButWire (exec (decodeCmd w) s) (exec (decodeCmd w) (withWire d s)) := by
  obtain hw | hw | hw | hw | hw | hw | hw := decodeCmd_cases w <;> rw [hw]
  · exact equalButWire_of_eq (startOp_withWire d s)
  · exact equalButWire_next d (setRun false s)
  · exact equalButWire_frameTick d s
  · exact equalButWire_next d (clearFifo s)
  · exact equalButWire_next d { s with degcnt := 0#32 }
  · exact equalButWire_refl (.next (resetAll s.rst s))
  · exact equalButWire_next d (raise .cmderr s)

theorem equalButWire_requestInstr {i : Input} {op : Instr} (hop : requestInstr i = some op) :
    EqualButWire (exec op s) (exec op (withWire d s)) := by
  obtain rfl | ⟨w, rfl⟩ | ⟨w, rfl, _⟩ := requestInstr_cases hop
  · exact equalButWire_frameTick d s
  · exact equalButWire_of_eq (pushWord_withWire d s w)
  · exact equalButWire_decodeCmd d s w

/-! ### Plain accesses -/

theorem readReg_withWire (r : Reg) : readReg (withWire d s) r = readReg s r := by
  cases r <;> rfl

theorem regOf_withWire (o : BitVec 12) (z : BitVec 2) : regOf (withWire d s) o z = regOf s o z := rfl

theorem busRead_withWire (o : BitVec 12) (z : BitVec 2) : busRead o z (withWire d s) = withWire d (busRead o z s) := by
  simp only [busRead, regOf_withWire, readReg_withWire]
  split <;> rfl

theorem storeReg_withWire (r : Reg) (w : Word) : storeReg r w (withWire d s) = withWire d (storeReg r w s) := by
  cases r <;> rfl

theorem writeReg_withWire (r : Reg) (w : Word) : writeReg r w (withWire d s) = withWire d (writeReg r w s) := by
  have hrun : (withWire d s).status.run = s.status.run := rfl
  simp only [writeReg, hrun, storeReg_withWire]
  split
  · rfl
  · split <;> rfl

theorem busWrite_withWire (o : BitVec 12) (z : BitVec 2) (w : Word) :
    busWrite o z w (withWire d s) = withWire d (busWrite o z w s) := by
  simp only [busWrite, regOf_withWire, writeReg_withWire]
  split <;> rfl

theorem plainAccess_withWire (i : Input) : plainAccess i (withWire d s) = withWire d (plainAccess i s) := by
  cases i with
  | read o z => exact busRead_withWire d s o z
  | write o z w => exact busWrite_withWire d s o z w
  | _ => rfl

/-! ### The step -/

theorem equalButWire_setRst (level : Bool) :
    EqualButWire (.next (setRst level s)) (.next (setRst level (withWire d s))) := by
  cases level with
  | true => exact equalButWire_refl (.next (resetAll true s))
  | false => exact equalButWire_next d (setRst false s)

theorem heldInReset_withWire (i : Input) : heldInReset i (withWire d s) = withWire d (heldInReset i s) := by
  cases i <;> rfl

theorem equalButWire_perform (i : Input) : EqualButWire (perform i s) (perform i (withWire d s)) := by
  have hrst : (withWire d s).rst = s.rst := rfl
  unfold perform
  split
  · exact equalButWire_setRst d s _
  · rw [hrst]
    split
    · exact equalButWire_of_eq (heldInReset_withWire d s _)
    · split
      · exact equalButWire_requestInstr d s ‹_›
      · exact equalButWire_of_eq (plainAccess_withWire d s _)

end

/-- Settles O59: a request is taken and performed the same whatever the wire holds, and only the wire may differ after it. -/
theorem wireIsNotObservable : Obligations.WireIsNotObservable := by
  intro s d
  show EqualButWire (step s) (step (withWire d s))
  have hpending : (withWire d s).pending = s.pending := rfl
  unfold step
  rw [hpending]
  split
  · exact equalButWire_next d (restPorts s)
  · exact equalButWire_perform d (takeRequest _ s) _

end Sys2Proof.Machine
end

section
/-! PROOFS. Encoding and decoding are inverse (O1): the lanes of a word give the word back, and each field of an encoded word
reads back as it was written. -/

namespace Sys2Proof

/-! ### Byte lanes (R63) -/

theorem wordOfLanes_lanesOfWord (w : Word) :
    wordOfLanes (w.extractLsb' 0 8) (w.extractLsb' 8 8) (w.extractLsb' 16 8) (w.extractLsb' 24 8) = w := by
  rw [wordOfLanes, BitVec.extractLsb'_append_extractLsb'_eq_extractLsb' (show 24 = 16 + 8 from rfl),
    BitVec.extractLsb'_append_extractLsb'_eq_extractLsb' (show 16 = 8 + 8 from rfl),
    BitVec.extractLsb'_append_extractLsb'_eq_extractLsb' (show 8 = 0 + 8 from rfl)]
  exact BitVec.extractLsb'_eq_self

/-- Decoding the lanes of a word is decoding the word. -/
@[simp] theorem decodeLanes_lanesOfWord (site : Site) (w : Word) : decodeLanes site (lanesOfWord w) = decode site w :=
  congrArg (decode site) (wordOfLanes_lanesOfWord w)

/-! ### Fields of an encoded word -/

section
variable (ty : BitVec 2) (note vel : BitVec 7)

theorem evtWord_note : (evtWord ty note vel).extractLsb' 0 7 = note :=
  BitVec.extractLsb'_append_eq_right

theorem evtWord_vel : (evtWord ty note vel).extractLsb' 8 7 = vel := by
  rw [evtWord, BitVec.extractLsb'_append_eq_of_le (by decide), BitVec.extractLsb'_append_eq_of_le (by decide)]
  exact BitVec.extractLsb'_append_eq_right

theorem evtWord_ty : (evtWord ty note vel).extractLsb' 16 2 = ty := by
  rw [evtWord, BitVec.extractLsb'_append_eq_of_le (by decide), BitVec.extractLsb'_append_eq_of_le (by decide),
    BitVec.extractLsb'_append_eq_of_le (by decide), BitVec.extractLsb'_append_eq_of_le (by decide)]
  exact BitVec.extractLsb'_append_eq_right

theorem decodeEvt_evtWord_noteOn : decodeEvt (evtWord 1#2 note vel) = .noteOn note vel := by
  simp [decodeEvt, evtWord_ty, evtWord_note, evtWord_vel]

theorem decodeEvt_evtWord_noteOff : decodeEvt (evtWord 2#2 note vel) = .noteOff note vel := by
  simp [decodeEvt, evtWord_ty, evtWord_note, evtWord_vel]

end

theorem kindField_kindWord (loc : KindLoc) (code : BitVec 3) : kindField loc (kindWord loc code) = code := by
  cases loc with
  | slot i => exact (BitVec.extractLsb'_setWidth_of_le (by decide)).trans BitVec.extractLsb'_eq_self
  | vkind => revert code; decide

/-- A word that is no command decodes to itself (R102). -/
theorem decodeCmd_of_isReservedCmd {w : Word} (h : isReservedCmd w = true) : decodeCmd w = .cmdReserved w := by
  have hw : w.toNat = 0 ∨ 6 < w.toNat := by simpa [isReservedCmd] using h
  unfold decodeCmd
  split
  case h_7 => rfl
  all_goals omega

/-! ### The round trip -/

theorem decode_encode {i : Instr} (h : i.wf = true) : decode (encode i).1 (encode i).2 = .ok i := by
  cases i with
  | cmdReserved w => exact congrArg Except.ok (decodeCmd_of_isReservedCmd h)
  | noteOn n v => exact congrArg Except.ok (decodeEvt_evtWord_noteOn n v)
  | noteOff n v => exact congrArg Except.ok (decodeEvt_evtWord_noteOff n v)
  | kindReserved6 loc => exact congrArg (fun c => Except.ok (decodeKind loc _ c)) (kindField_kindWord loc 6#3)
  | kindReserved7 loc => exact congrArg (fun c => Except.ok (decodeKind loc _ c)) (kindField_kindWord loc 7#3)
  | _ => rfl

/-- Settles O1: the lanes carry the word to the decoder, and the decoder reads back every field of an encoded word. -/
theorem decodeEncodeRoundTrip : Obligations.DecodeEncodeRoundTrip := by
  intro i h
  rw [decodeLanes_lanesOfWord]
  exact decode_encode h

end Sys2Proof
end

section
/-! PROOFS. The register map (R90, R91), and which access a request is: a word on CMD or EVT is an operation, any other read or
write is decided by the register it reaches (O6, O7, O8, O12). -/

namespace Sys2Proof.Machine

/-! ### The register map -/

section
variable {nOsc : Nat}

theorem regAtWord_slot {i j : Nat} (hi : i < 16) (hj : j < 4) :
    regAtWord nOsc (0x40 + 4 * i + j) = slotReg nOsc i j := by
  have hdiv : (0x40 + 4 * i + j - 0x40) / 4 = i := by omega
  have hmod : (0x40 + 4 * i + j - 0x40) % 4 = j := by omega
  rw [regAtWord, if_neg (by omega), if_pos (by omega), hdiv, hmod]

theorem regAtWord_vact {k : Nat} (hk : k < 4) : regAtWord nOsc (0x80 + k) = some (.vact k) := by
  rw [regAtWord, if_neg (by omega), if_neg (by omega), if_pos (by omega), Nat.add_sub_cancel_left]

theorem regAtWord_vloud {n : Nat} (hn : n < 128) : regAtWord nOsc (0x100 + n) = some (.vloud n) := by
  rw [regAtWord, if_neg (by omega), if_neg (by omega), if_neg (by omega), if_neg (by omega), if_pos (by omega),
    Nat.add_sub_cancel_left]

theorem regAtWord_of_toNat_eq {o : BitVec 12} {k : Nat} {q : Option Reg} (ho : o.toNat = 4 * k)
    (hk : regAtWord nOsc k = q) : o.toNat % 4 = 0 ∧ regAtWord nOsc (o.toNat / 4) = q := by
  rw [ho, Nat.mul_div_cancel_left k (by decide), Nat.mul_mod_right]
  exact ⟨rfl, hk⟩

/-- Each register of the map stands at its offset (R90). -/
theorem regAtWord_offset (hlen : nOsc ≤ 16) {r : Reg} (hr : r.inMap nOsc = true) :
    r.offset.toNat % 4 = 0 ∧ regAtWord nOsc (r.offset.toNat / 4) = some r := by
  have offset (n : Nat) (hn : n < 4096) : (BitVec.ofNat 12 n).toNat = n :=
    (BitVec.toNat_ofNat n 12).trans (Nat.mod_eq_of_lt hn)
  have slot {i j : Nat} (hi : i < nOsc) (hj : j < 4) : regAtWord nOsc (0x40 + 4 * i + j) = slotReg nOsc i j :=
    regAtWord_slot (by omega) hj
  cases r with
  | oscKind i =>
    have hi : i < nOsc := of_decide_eq_true hr
    exact regAtWord_of_toNat_eq ((offset _ (by omega)).trans (by omega))
      ((slot hi (j := 0) (by decide)).trans (if_neg (by omega)))
  | oscFreq i =>
    have hi : i < nOsc := of_decide_eq_true hr
    exact regAtWord_of_toNat_eq ((offset _ (by omega)).trans (by omega))
      ((slot hi (j := 1) (by decide)).trans (if_neg (by omega)))
  | oscDepth i =>
    have hi : i < nOsc := of_decide_eq_true hr
    exact regAtWord_of_toNat_eq ((offset _ (by omega)).trans (by omega))
      ((slot hi (j := 2) (by decide)).trans (if_neg (by omega)))
  | vact k =>
    have hk : k < 4 := of_decide_eq_true hr
    exact regAtWord_of_toNat_eq ((offset _ (by omega)).trans (by omega)) (regAtWord_vact hk)
  | vloud n =>
    have hn : n < 128 := of_decide_eq_true hr
    exact regAtWord_of_toNat_eq ((offset _ (by omega)).trans (by omega)) (regAtWord_vloud hn)
  | _ => exact ⟨rfl, rfl⟩

theorem slotReg_eq_none_iff {i j : Nat} (hj : j < 4) : slotReg nOsc i j = none ↔ nOsc ≤ i ∨ j = 3 := by
  unfold slotReg
  split
  · simp [*]
  · interval_cases j <;> simp [*]

/-- The reserved offsets (R91), word by word. -/
theorem reservedOffset_iff {k : Nat} (hk : k < 1024) :
    reservedOffset nOsc (4 * k) ↔
      0x17 ≤ k ∧ k < 0x40 ∨ (0x40 ≤ k ∧ k < 0x80 ∧ (nOsc ≤ (k - 0x40) / 4 ∨ (k - 0x40) % 4 = 3)) ∨
        0x84 ≤ k ∧ k < 0x100 ∨ 0x180 ≤ k := by
  constructor
  · rintro (h | ⟨i, h⟩ | ⟨i, h⟩ | h | h) <;> omega
  · rintro (h | ⟨hlo, hhi, h | h⟩ | h | h)
    · exact .inl (by omega)
    · exact .inr (.inr (.inl ⟨(k - 0x40) / 4, by omega⟩))
    · exact .inr (.inl ⟨(k - 0x40) / 4, by omega⟩)
    · exact .inr (.inr (.inr (.inl (by omega))))
    · exact .inr (.inr (.inr (.inr (by omega))))

/-- No register stands at a word exactly where its offset is reserved (R91). -/
theorem regAtWord_eq_none_iff {k : Nat} (hk : k < 1024) : regAtWord nOsc k = none ↔ reservedOffset nOsc (4 * k) := by
  have hplain : plainRegs.length = 0x17 := rfl
  rw [reservedOffset_iff hk]
  unfold regAtWord
  split_ifs
  · rw [List.getElem?_eq_none_iff]
    omega
  · rw [slotReg_eq_none_iff (Nat.mod_lt _ (by decide))]
    omega
  all_goals
    simp only [true_iff, false_iff]
    omega

end

/-! ### The register an access reaches -/

section
variable {s : State} {r : Reg} {o : BitVec 12} {z : BitVec 2}

theorem accessDefined_word (ho : o.toNat % 4 = 0) : accessDefined o 2#2 = true := by
  simp [accessDefined, ho]

theorem regOf_offset (hlen : s.osc.length ≤ 16) (hr : r.inMap s.osc.length = true) : regOf s r.offset 2#2 = some r := by
  obtain ⟨halign, hreg⟩ := regAtWord_offset hlen hr
  rw [regOf, if_pos (accessDefined_word halign), hreg]

theorem regOf_eq_none_iff (ho : o.toNat % 4 = 0) : regOf s o 2#2 = none ↔ reservedOffset s.osc.length o.toNat := by
  have hword : 4 * (o.toNat / 4) = o.toNat := by omega
  rw [regOf, if_pos (accessDefined_word ho), regAtWord_eq_none_iff (by have := o.isLt; omega), hword]

/-- An access of the wrong size or alignment reaches no register (R64). -/
theorem accessDefined_eq_false (h : z ≠ 2#2 ∨ o.extractLsb' 0 2 ≠ 0#2) : accessDefined o z = false := by
  obtain hz | ho := h
  · simp [accessDefined, hz]
  · have : o.toNat % 4 ≠ 0 := fun hmod => ho (BitVec.eq_of_toNat_eq (by simpa using hmod))
    simp [accessDefined, this]

theorem regOf_eq_none_of_not_accessDefined (h : accessDefined o z = false) : regOf s o z = none := by
  simp [regOf, h]

/-! ### Requests -/

theorem busRead_of_regOf (h : regOf s o z = some r) : busRead o z s = drives (readReg s r) s := by
  simp only [busRead, h]

theorem busRead_of_regOf_eq_none (h : regOf s o z = none) : busRead o z s = drives 0#32 (raise .accerr s) := by
  simp only [busRead, h]

theorem busWrite_of_regOf (h : regOf s o z = some r) (w : Word) : busWrite o z w s = writeReg r w s := by
  simp only [busWrite, h]

theorem busWrite_of_regOf_eq_none (h : regOf s o z = none) (w : Word) : busWrite o z w s = raise .accerr s := by
  simp only [busWrite, h]

/-- With `rst` low a read is a plain access. -/
theorem perform_read (hrst : s.rst = false) (o : BitVec 12) (z : BitVec 2) :
    perform (.read o z) s = .next (busRead o z s) := by
  simp [perform, hrst, requestInstr, plainAccess]

/-- With `rst` low a request that is an operation runs it. -/
theorem perform_requestInstr (hrst : s.rst = false) {i : Input} {op : Instr} (hop : requestInstr i = some op) :
    perform i s = exec op s := by
  cases i with
  | rst l => exact absurd hop (by simp [requestInstr])
  | _ => simp [perform, hrst, hop]

/-- With `rst` low a write is a plain access, but for a word on CMD or EVT. -/
theorem perform_write (hrst : s.rst = false) (h : z = 2#2 → o ≠ 0x010#12 ∧ o ≠ 0x014#12) (w : Word) :
    perform (.write o z w) s = .next (busWrite o z w s) := by
  have hop : requestInstr (.write o z w) = none := by
    simp only [requestInstr]
    rw [if_neg fun hc => (h hc.1).1 hc.2, if_neg fun he => (h he.1).2 he.2]
  simp [perform, hrst, hop, plainAccess]

/-- A write to an offset that reaches no register. -/
theorem perform_write_of_regOf_eq_none (hrst : s.rst = false) (h : regOf s o z = none) (w : Word) :
    perform (.write o z w) s = .next (raise .accerr s) := by
  rw [perform_write hrst, busWrite_of_regOf_eq_none h]
  rintro rfl
  constructor <;> rintro rfl <;> exact absurd h (by simp [regOf, accessDefined, regAtWord, plainRegs])

theorem perform_read_of_regOf_eq_none (hrst : s.rst = false) (h : regOf s o z = none) :
    perform (.read o z) s = .next (drives 0#32 (raise .accerr s)) := by
  rw [perform_read hrst, busRead_of_regOf_eq_none h]

theorem perform_read_reg (hrst : s.rst = false) (hlen : s.osc.length ≤ 16) (hr : r.inMap s.osc.length = true) :
    perform (.read r.offset 2#2) s = .next (drives (readReg s r) s) := by
  rw [perform_read hrst, busRead_of_regOf (regOf_offset hlen hr)]

theorem offset_ne (hlen : s.osc.length ≤ 16) (hr : r.inMap s.osc.length = true) {r' : Reg}
    (hr' : r'.inMap s.osc.length = true) (hne : r ≠ r') : r.offset ≠ r'.offset := fun ho =>
  hne (Option.some.inj (((regOf_offset hlen hr).symm.trans (by rw [ho])).trans (regOf_offset hlen hr')))

theorem perform_write_reg (hrst : s.rst = false) (hlen : s.osc.length ≤ 16) (hr : r.inMap s.osc.length = true)
    (hcmd : r ≠ .cmd) (hevt : r ≠ .evt) (w : Word) :
    perform (.write r.offset 2#2 w) s = .next (writeReg r w s) := by
  rw [perform_write hrst fun _ => ⟨offset_ne hlen hr (r' := .cmd) rfl hcmd, offset_ne hlen hr (r' := .evt) rfl hevt⟩,
    busWrite_of_regOf (regOf_offset hlen hr)]

/-! ### Which registers a write reaches -/

theorem writeReg_of_readOnly (h : r.readOnly = true) (w : Word) (s : State) : writeReg r w s = raise .accerr s :=
  if_pos h

theorem readOnly_of_locked (h : r.locked = true) : r.readOnly = false := by
  cases r with
  | ctrl | srate | clkmod | volume | cutoff | alpha | oscKind | oscFreq | oscDepth => rfl
  | _ => exact elim_of_eq_false rfl h

theorem perform_write_readOnly (hrst : s.rst = false) (hlen : s.osc.length ≤ 16) (hr : r.inMap s.osc.length = true)
    (h : r.readOnly = true) (w : Word) : perform (.write r.offset 2#2 w) s = .next (raise .accerr s) := by
  rw [perform_write_reg hrst hlen hr (by rintro rfl; cases h) (by rintro rfl; cases h), writeReg_of_readOnly h]

section
variable (hrst : s.rst = false) (hlen : s.osc.length ≤ 16) (hr : r.inMap s.osc.length = true) (hl : r.locked = true)
  (w : Word)
include hrst hlen hr hl

theorem perform_write_locked : perform (.write r.offset 2#2 w) s = .next (writeReg r w s) :=
  perform_write_reg hrst hlen hr (by rintro rfl; cases hl) (by rintro rfl; cases hl) w

/-- A write of the locked set is dropped while a session runs (R66). -/
theorem perform_write_locked_running (hrun : s.status.run = true) :
    perform (.write r.offset 2#2 w) s = .next (raise .lockerr s) := by
  rw [perform_write_locked hrst hlen hr hl]
  simp [writeReg, readOnly_of_locked hl, hl, hrun]

theorem perform_write_locked_stopped (hrun : s.status.run = false) :
    perform (.write r.offset 2#2 w) s = .next (storeReg r w s) := by
  rw [perform_write_locked hrst hlen hr hl]
  simp [writeReg, readOnly_of_locked hl, hrun]

end

/-! ### The step -/

theorem step_of_pending_nil (hp : s.pending = []) : step s = .next (restPorts s) := by
  simp only [step, hp]

theorem step_of_pending {i : Input} {rest : List Input} (hp : s.pending = i :: rest) :
    step s = perform i (takeRequest rest s) := by
  simp only [step, hp]

end

/-! ### The statements -/

/-- Settles O6: no register stands at a reserved offset, so that a write there is no operation either. -/
theorem reservedAndReadOnlyAccesses : Obligations.ReservedAndReadOnlyAccesses := by
  intro s o r w hrst _ hlen ho hr
  have readOnly : ∀ r ∈ [Reg.id, .params, .errcode, .clk, .fstate, .peak, .cperiod, .degcnt, .mixout, .out, .loudsum,
      .evqcnt, .nvoice, .framecnt], r.readOnly = true := by decide
  refine ⟨regOf_eq_none_iff ho, fun h => ?_, fun h => ?_, perform_read_reg (r := .cmd) hrst hlen rfl,
    perform_read_reg (r := .evt) hrst hlen rfl⟩
  · have hnone := (regOf_eq_none_iff ho).2 h
    exact ⟨perform_read_of_regOf_eq_none hrst hnone, perform_write_of_regOf_eq_none hrst hnone w⟩
  · apply perform_write_readOnly hrst hlen hr
    obtain ⟨n, rfl | rfl⟩ | h := h
    · rfl
    · rfl
    · exact readOnly r h

/-- Settles O7: an access that is not defined reaches no register. -/
theorem subWordAndMisalignedAccesses : Obligations.SubWordAndMisalignedAccesses := by
  intro s o z w hrst h
  have hnone : regOf s o z = none := regOf_eq_none_of_not_accessDefined (accessDefined_eq_false h)
  exact ⟨perform_read_of_regOf_eq_none hrst hnone, perform_write_of_regOf_eq_none hrst hnone w⟩

/-- Settles O8: RUN decides what a write of the locked set does. -/
theorem lockedWrites : Obligations.LockedWrites := by
  intro s r w hrst hlen hr h
  have locked : ∀ r ∈ [Reg.ctrl, .srate, .clkmod, .volume, .cutoff, .alpha], r.locked = true := by decide
  have hl : r.locked = true := by
    obtain ⟨i, rfl | rfl | rfl⟩ | h := h
    · rfl
    · rfl
    · rfl
    · exact locked r h
  exact ⟨perform_write_locked_running hrst hlen hr hl w, perform_write_locked_stopped hrst hlen hr hl w⟩

/-- Settles O12: the lanes of a request's word decode to the operation that the request is. -/
theorem stepRunsDecodedRequest : Obligations.StepRunsDecodedRequest := by
  intro s rest hrst
  have run {i : Input} {site : Site} {w : Word} {op : Instr} (hsite : requestInstr i = (decode site w).toOption)
      (hp : s.pending = i :: rest) (hd : decodeLanes site (lanesOfWord w) = .ok op) :
      step s = exec op (takeRequest rest s) := by
    rw [decodeLanes_lanesOfWord] at hd
    rw [hd] at hsite
    exact (step_of_pending hp).trans (perform_requestInstr (s := takeRequest rest s) hrst hsite)
  exact ⟨step_of_pending_nil, fun w _ => run (site := .cmd) (w := w) rfl, fun w _ => run (site := .evtPort) (w := w) rfl,
    fun w _ => run (site := .evtPort) (w := w) rfl, fun w _ => run (site := .tickPort) (w := w) rfl,
    fun o z hp => (step_of_pending hp).trans (perform_read (s := takeRequest rest s) hrst o z),
    fun o z w hp h => (step_of_pending hp).trans (perform_write (s := takeRequest rest s) hrst h w)⟩

end Sys2Proof.Machine
end

section
/-! PROOFS. What a register reads (O10), what a write stores in it (O9), and that a stored value is read back and no other
register changes (O11). -/

namespace Sys2Proof.Machine

/-! ### The views (R42, R93, R95) -/

/-- The voice table in the order of the notes. -/
theorem voice_toList (s : State) : s.voice.toList = (List.range 128).map fun n => voiceAt s (BitVec.ofNat 7 n) := by
  apply List.ext_getElem (by simp)
  intro n hn _
  have hlt : n < 128 := by simpa using hn
  simp [voiceAt, Nat.mod_eq_of_lt hlt]

theorem nvoice_eq (s : State) :
    nvoice s = ((List.range 128).filter fun n => (voiceAt s (BitVec.ofNat 7 n)).active).length := by
  rw [nvoice, voice_toList, List.countP_map, List.countP_eq_length_filter]
  rfl

theorem nvoice_le (s : State) : nvoice s ≤ 128 :=
  List.countP_le_length.trans (Vector.length_toList ..).le

/-- A word that is built bit by bit. -/
theorem getLsbD_foldl_bits (p : Nat → Bool) {n : Nat} (hn : n ≤ 32) (j : Nat) :
    ((List.range n).foldl (fun acc b => if p b then acc ||| BitVec.ofNat 32 (2 ^ b) else acc) 0#32).getLsbD j =
      (decide (j < n) && p j) := by
  induction n with
  | zero => simp
  | succ n ih =>
    have hbit : (BitVec.ofNat 32 (2 ^ n)).getLsbD j = decide (n = j) := getLsbD_bitWord (by omega) true j
    rw [List.range_succ, List.foldl_append, List.foldl_cons, List.foldl_nil, apply_ite (BitVec.getLsbD · j),
      BitVec.getLsbD_or, ih (by omega), hbit]
    obtain rfl | hj := eq_or_ne n j
    · cases hp : p n <;> simp
    · have hlt : j < n + 1 ↔ j < n := by omega
      simp [hj, hlt]

theorem getLsbD_vactWord (s : State) {w b : Nat} (hw : w < 4) (hb : b < 32) :
    (vactWord s w).getLsbD b = (voiceAt s (BitVec.ofNat 7 (32 * w + b))).active := by
  have hn : 32 * w + b < 128 := by omega
  rw [vactWord, getLsbD_foldl_bits (fun b => (s.voice.toList.getD (32 * w + b) {}).active) le_rfl, voice_toList]
  simp [hb, hn]

theorem evqe_eq (s : State) : evqe s = decide (s.fifo = []) :=
  Bool.eq_iff_iff.2 (by simp [evqe])

theorem toNat_paramsWord {s : State} (hlen : s.osc.length ≤ 16) (hdepth : s.par.evqDepth ≤ 1023) :
    (paramsWord s).toNat = s.par.evqDepth * 256 + s.osc.length := by
  rw [paramsWord, BitVec.toNat_ofNat]
  omega

theorem setWidth_eq_zero_append (c : BitVec 8) : c.setWidth 32 = (0x000000#24 ++ c : BitVec 32) :=
  BitVec.setWidth_eq_append (by decide)

/-- Settles O10: a read drives the register's value and nothing else; the views are read through their own lemmas. -/
theorem wordReads : Obligations.WordReads := by
  intro s hrst hlen hdepth
  refine ⟨fun r hr => perform_read_reg hrst hlen hr, setWidth_eq_zero_append s.ctrl, rfl, rfl, rfl, rfl, rfl, rfl, rfl, rfl,
    rfl, rfl, rfl, rfl, rfl, rfl, rfl, fun i o ho => ?_, rfl, rfl, rfl, rfl, toNat_paramsWord hlen hdepth, fun i hi => ?_,
    rfl, ?_, fun w b hw hb => getLsbD_vactWord s hw hb, fun n _ => rfl⟩
  · have hslot : s.osc.getD i {} = o := by rw [List.getD_eq_getElem?_getD, ho, Option.getD_some]
    simp only [readReg, hslot, BitVec.toNat_setWidth_of_le (show 3 ≤ 32 by decide), and_self]
  · show (statusWord s).getLsbD i = _
    simp (disch := decide) only [statusWord, BitVec.getLsbD_or, getLsbD_bitWord]
    interval_cases i <;> simp [evqe_eq, evqf]
  · rw [← nvoice_eq]
    exact Nat.mod_eq_of_lt (by have := nvoice_le s; omega)

/-! ### Stores -/

/-- Settles O9: each word lands in the register at its offset, and a word on CMD or EVT is an operation. -/
theorem wordWritesStore : Obligations.WordWritesStore := by
  intro s w i hrst hlen hi
  have slot : decide (i < s.osc.length) = true := decide_eq_true hi
  refine ⟨fun hrun => ?_, ?_, ?_, ?_⟩
  · have store {r : Reg} (hr : r.inMap s.osc.length = true) (hl : r.locked = true) :
        perform (.write r.offset 2#2 w) s = .next (storeReg r w s) :=
      perform_write_locked_stopped hrst hlen hr hl w hrun
    rw [← BitVec.setWidth_eq_extractLsb' (by decide), ← BitVec.setWidth_eq_extractLsb' (by decide)]
    exact ⟨store (r := .ctrl) rfl rfl, store (r := .srate) rfl rfl, store (r := .clkmod) rfl rfl,
      store (r := .volume) rfl rfl, store (r := .cutoff) rfl rfl, store (r := .alpha) rfl rfl,
      store (r := .oscKind i) slot rfl, store (r := .oscFreq i) slot rfl, store (r := .oscDepth i) slot rfl⟩
  · exact perform_write_reg (r := .status) hrst hlen rfl (by decide) (by decide) w
  · exact perform_requestInstr hrst rfl
  · exact perform_requestInstr hrst rfl

/-! ### A slot after a write -/

section
variable {s : State} {i j : Nat} {f : OscSlot → OscSlot}

theorem slot_setSlot_of_ne (h : i ≠ j) : (setSlot i f s).osc.getD j {} = s.osc.getD j {} := by
  rw [List.getD_eq_getElem?_getD, List.getD_eq_getElem?_getD]
  exact congrArg (·.getD {}) (List.getElem?_modify_ne f s.osc h)

theorem slot_setSlot_self (h : i < s.osc.length) : (setSlot i f s).osc.getD i {} = f (s.osc.getD i {}) := by
  simp [h]

/-- A field that the write leaves in a slot is the same in every slot. -/
theorem slot_setSlot_congr {β : Type} (g : OscSlot → β) (hg : ∀ o, g (f o) = g o) :
    g ((setSlot i f s).osc.getD j {}) = g (s.osc.getD j {}) := by
  obtain rfl | hij := eq_or_ne i j
  · obtain hi | hi := lt_or_ge i s.osc.length
    · rw [slot_setSlot_self hi, hg]
    · simp [List.modify_eq_self hi]
  · rw [slot_setSlot_of_ne hij]

end

/-! ### Reading back -/

/-- A narrow register reads the bits that it has of the word written. -/
theorem setWidth_setWidth_eq_and (w : Word) {k : Nat} (hk : k < 32) :
    (w.setWidth k).setWidth 32 = w &&& BitVec.ofNat 32 (2 ^ k - 1) := by
  have hpow : 2 ^ k < 2 ^ 32 := Nat.pow_lt_pow_right (by decide) hk
  apply BitVec.eq_of_toNat_eq
  rw [BitVec.toNat_setWidth_of_le hk.le, BitVec.toNat_setWidth, BitVec.toNat_and, BitVec.toNat_ofNat,
    Nat.mod_eq_of_lt (show 2 ^ k - 1 < 2 ^ 32 by omega), Nat.and_two_pow_sub_one_eq_mod]

section
variable {r r' : Reg} (w : Word) (s : State)

/-- Outside the locked set every register reads as before a write of the configuration. -/
theorem readReg_storeReg_of_not_locked (hl : r.locked = true) (hl' : r'.locked = false) :
    readReg (storeReg r w s) r' = readReg s r' := by
  obtain ⟨hframe, hlen⟩ := storeReg_of_locked hl w s
  cases r' with
  | ctrl | srate | clkmod | volume | cutoff | alpha | oscKind | oscFreq | oscDepth => cases hl'
  | params =>
    have hpar : (storeReg r w s).par = s.par := by rw [hframe]
    simp only [readReg, paramsWord, hpar, hlen]
  | _ => rw [hframe]; rfl

/-- Within the locked set every register but the one written reads as before. -/
theorem readReg_storeReg_of_locked (hl' : r'.locked = true) (hne : r' ≠ r) :
    readReg (storeReg r w s) r' = readReg s r' := by
  cases r' with
  | ctrl | srate | clkmod | volume | cutoff | alpha => cases r <;> simp_all [readReg, storeReg]
  | oscKind j =>
    cases r with
    | oscKind i => exact congrArg (fun o : OscSlot => o.kind.setWidth 32) (slot_setSlot_of_ne fun h => hne (by rw [h]))
    | oscFreq | oscDepth => exact congrArg (BitVec.setWidth 32) (slot_setSlot_congr OscSlot.kind fun _ => rfl)
    | _ => rfl
  | oscFreq j =>
    cases r with
    | oscFreq i => exact congrArg OscSlot.freq (slot_setSlot_of_ne fun h => hne (by rw [h]))
    | oscKind | oscDepth => exact slot_setSlot_congr OscSlot.freq fun _ => rfl
    | _ => rfl
  | oscDepth j =>
    cases r with
    | oscDepth i => exact congrArg OscSlot.depth (slot_setSlot_of_ne fun h => hne (by rw [h]))
    | oscKind | oscFreq => exact slot_setSlot_congr OscSlot.depth fun _ => rfl
    | _ => rfl
  | _ => cases hl'

theorem readReg_storeReg_of_ne (hl : r.locked = true) (hne : r' ≠ r) : readReg (storeReg r w s) r' = readReg s r' := by
  cases hl' : r'.locked with
  | true => exact readReg_storeReg_of_locked w s hl' hne
  | false => exact readReg_storeReg_of_not_locked w s hl hl'

end

/-- Settles O11: the write stores, and a stored word is read back from its own register alone. -/
theorem configurationWriteIsReadBack : Obligations.ConfigurationWriteIsReadBack := by
  intro s r r' w hrst hrun hlen hr _ hl
  refine ⟨storeReg r w s, perform_write_locked_stopped hrst hlen hr hl w hrun, ?_, readReg_storeReg_of_ne w s hl⟩
  cases r with
  | ctrl => exact setWidth_setWidth_eq_and w (k := 8) (by decide)
  | oscKind i =>
    exact (congrArg (fun o : OscSlot => o.kind.setWidth 32) (slot_setSlot_self (of_decide_eq_true hr))).trans
      (setWidth_setWidth_eq_and w (k := 3) (by decide))
  | oscFreq i => exact congrArg OscSlot.freq (slot_setSlot_self (of_decide_eq_true hr))
  | oscDepth i => exact congrArg OscSlot.depth (slot_setSlot_self (of_decide_eq_true hr))
  | srate | clkmod | volume | cutoff | alpha => rfl
  | _ => cases hl

end Sys2Proof.Machine
end

section
/-! PROOFS. What a word decodes to, as equivalences: a CMD word by the encoder's word, an EVT word by its TYPE (O2, O3). -/

namespace Sys2Proof

/-! ### CMD words (R101, R102) -/

/-- A CMD word is the word of the operation it decodes to. -/
theorem encode_decodeCmd (w : Word) : (encode (decodeCmd w)).2 = w := by
  unfold decodeCmd
  split
  case h_7 => rfl
  all_goals exact BitVec.eq_of_toNat_eq (Eq.symm ‹_›)

/-- An operation that its own word decodes to is decoded from no other word. -/
theorem decodeCmd_eq_iff {w : Word} {i : Instr} (hi : decodeCmd (encode i).2 = i) :
    decodeCmd w = i ↔ w = (encode i).2 :=
  ⟨fun h => h ▸ (encode_decodeCmd w).symm, fun h => h ▸ hi⟩

theorem decodeCmd_eq_cmdReserved_iff {w : Word} : decodeCmd w = .cmdReserved w ↔ isReservedCmd w = true := by
  refine ⟨not_imp_not.1 fun h => ?_, decodeCmd_of_isReservedCmd⟩
  have hcmd : w.toNat = 1 ∨ w.toNat = 2 ∨ w.toNat = 3 ∨ w.toNat = 4 ∨ w.toNat = 5 ∨ w.toNat = 6 := by
    simp only [isReservedCmd, Bool.or_eq_true, decide_eq_true_eq] at h
    omega
  obtain h | h | h | h | h | h := hcmd <;> simp [decodeCmd, h]

/-- The reserved words by their fields (R102): bits [31:8], and the opcode in bits [7:0]. -/
theorem isReservedCmd_iff {w : Word} :
    isReservedCmd w = true ↔
      w.extractLsb' 8 24 ≠ 0#24 ∨ w.extractLsb' 0 8 = 0x00#8 ∨ 0x07#8 ≤ w.extractLsb' 0 8 := by
  have hhigh : (w.extractLsb' 8 24).toNat = w.toNat / 2 ^ 8 % 2 ^ 24 := by
    rw [BitVec.extractLsb'_toNat, Nat.shiftRight_eq_div_pow]
  have hlow : (w.extractLsb' 0 8).toNat = w.toNat % 2 ^ 8 := by
    rw [BitVec.extractLsb'_toNat, Nat.shiftRight_zero]
  simp only [isReservedCmd, Bool.or_eq_true, decide_eq_true_eq, ne_eq, ← BitVec.toNat_inj, BitVec.le_def, hhigh, hlow,
    BitVec.toNat_ofNat]
  omega

/-! ### EVT words (R103, R104) -/

/-- TYPE decides what an EVT word is. -/
theorem decodeEvt_cases (w : Word) :
    (w.extractLsb' 16 2 = 0#2 ∧ decodeEvt w = .evtReservedType0) ∨
      (w.extractLsb' 16 2 = 1#2 ∧ decodeEvt w = .noteOn (w.extractLsb' 0 7) (w.extractLsb' 8 7)) ∨
      (w.extractLsb' 16 2 = 2#2 ∧ decodeEvt w = .noteOff (w.extractLsb' 0 7) (w.extractLsb' 8 7)) ∨
      (w.extractLsb' 16 2 = 3#2 ∧ decodeEvt w = .evtReservedType3) := by
  have cases4 : ∀ ty : BitVec 2, ty = 0#2 ∨ ty = 1#2 ∨ ty = 2#2 ∨ ty = 3#2 := by decide
  unfold decodeEvt
  rcases cases4 (w.extractLsb' 16 2) with h | h | h | h <;> simp [h]

/-- Settles O2: a CMD word is the word of what it decodes to, TYPE decides an EVT word, and the KIND codes are the decoder's
own table. -/
theorem decodingIsTotal : Obligations.DecodingIsTotal := by
  intro w loc a
  refine ⟨decodeCmd_eq_iff rfl, decodeCmd_eq_iff rfl, decodeCmd_eq_iff rfl, decodeCmd_eq_iff rfl, decodeCmd_eq_iff rfl,
    decodeCmd_eq_iff rfl, decodeCmd_eq_cmdReserved_iff.trans isReservedCmd_iff, ?_, ?_, ?_, ?_, rfl, rfl, rfl, rfl, rfl, rfl,
    rfl, rfl⟩
  all_goals obtain ⟨hty, hd⟩ | ⟨hty, hd⟩ | ⟨hty, hd⟩ | ⟨hty, hd⟩ := decodeEvt_cases w <;> simp [hty, hd]

/-- Settles O3: each word, from its byte lanes, by the decoder of its site. -/
theorem wordsDecodeAsTabled : Obligations.WordsDecodeAsTabled :=
  ⟨rfl, rfl, rfl, rfl, rfl, rfl, rfl, rfl, rfl⟩

end Sys2Proof
end

section
/-! PROOFS. The bits that are not read (O4), and the register map as a bijection (O5). -/

namespace Sys2Proof.Machine

/-! ### Ignored bits (R106) -/

/-- A field that a mask keeps whole is the field of the masked word. -/
theorem extractLsb'_and_of_mask {m : Word} {start len : Nat} (hm : m.extractLsb' start len = BitVec.allOnes len)
    (w : Word) : (w &&& m).extractLsb' start len = w.extractLsb' start len := by
  rw [BitVec.extractLsb'_and, hm, BitVec.and_allOnes]

theorem setWidth_and_of_mask {m : Word} {k : Nat} (hm : m.setWidth k = BitVec.allOnes k) (w : Word) :
    (w &&& m).setWidth k = w.setWidth k := by
  rw [BitVec.setWidth_and, hm, BitVec.and_allOnes]

/-- A push reads TYPE, NOTE and VEL alone (R103). -/
theorem pushWord_congr {w w' : Word} (hty : w.extractLsb' 16 2 = w'.extractLsb' 16 2)
    (hnote : w.extractLsb' 0 7 = w'.extractLsb' 0 7) (hvel : w.extractLsb' 8 7 = w'.extractLsb' 8 7) (s : State) :
    pushWord w s = pushWord w' s := by
  simp only [pushWord, hty, hnote, hvel]

/-- An acknowledgement reads bits [14:8] alone (R67). -/
theorem acknowledge_congr {w w' : Word} (h : ∀ j, 8 ≤ j → j ≤ 14 → w.getLsbD j = w'.getLsbD j) (s : State) :
    acknowledge w s = acknowledge w' s := by
  simp (disch := decide) only [acknowledge, stickyClear, h]

/-- Settles O4: each mask keeps the fields that the operation or the register reads. -/
theorem ignoredBitsHaveNoEffect : Obligations.IgnoredBitsHaveNoEffect := by
  intro s w i
  refine ⟨congrArg Host.Outcome.next (pushWord_congr ?_ ?_ ?_ s), ?_, ?_, acknowledge_congr (fun j hlo hhi => ?_) s⟩
  · exact (extractLsb'_and_of_mask rfl w).symm
  · exact (extractLsb'_and_of_mask rfl w).symm
  · exact (extractLsb'_and_of_mask rfl w).symm
  · simp only [storeReg, setWidth_and_of_mask (m := 0x000000FF#32) (k := 8) rfl w]
  · simp only [storeReg, setWidth_and_of_mask (m := 0x00000007#32) (k := 3) rfl w]
  · have hm : ∀ j ≤ 14, 8 ≤ j → (0x00007F00#32).getLsbD j = true := by decide
    rw [BitVec.getLsbD_and, hm j hhi hlo, Bool.and_true]

/-! ### The register map is one to one (R90) -/

section
variable {nOsc k : Nat} {r : Reg}

/-- The registers at offsets 0x000 to 0x058 stand at consecutive words. -/
theorem offset_of_plainRegs (h : plainRegs[k]? = some r) : r.inMap nOsc = true ∧ r.offset.toNat = 4 * k := by
  have hmap : ∀ r ∈ plainRegs, r.inMap nOsc = true := by simp [plainRegs, Reg.inMap]
  have hoffset : ∀ k < plainRegs.length, plainRegs[k]?.map (·.offset.toNat) = some (4 * k) := by decide
  have hk := hoffset k (List.getElem?_eq_some_iff.1 h).1
  rw [h] at hk
  exact ⟨hmap r (List.mem_of_getElem? h), Option.some.inj hk⟩

theorem slotReg_eq_some {i j : Nat} (h : slotReg nOsc i j = some r) :
    i < nOsc ∧ (j = 0 ∧ r = .oscKind i ∨ j = 1 ∧ r = .oscFreq i ∨ j = 2 ∧ r = .oscDepth i) := by
  unfold slotReg at h
  split at h
  · cases h
  · refine ⟨by omega, ?_⟩
    split at h <;> cases h <;> simp

/-- The register at a word of the window is in the map, and the word is at its offset. -/
theorem offset_of_regAtWord (h : regAtWord nOsc k = some r) : r.inMap nOsc = true ∧ r.offset.toNat = 4 * k := by
  unfold regAtWord at h
  split_ifs at h
  · exact offset_of_plainRegs h
  · obtain ⟨hi, ⟨hj, rfl⟩ | ⟨hj, rfl⟩ | ⟨hj, rfl⟩⟩ := slotReg_eq_some h <;>
      simp only [Reg.inMap, Reg.offset, BitVec.toNat_ofNat, decide_eq_true_eq] <;> omega
  all_goals
    cases h
    simp only [Reg.inMap, Reg.offset, BitVec.toNat_ofNat, decide_eq_true_eq]
    omega

end

/-- Settles O5: the offset of a register leads to the word that holds it, and the register at a word has the word's
offset. -/
theorem registerMapIsOneToOne : Obligations.RegisterMapIsOneToOne :=
  fun _ hlen => ⟨fun _ hr => regAtWord_offset hlen hr, fun _ _ _ h => offset_of_regAtWord h⟩

end Sys2Proof.Machine
end

section
/-! PROOFS. The operations that the selecting codes stand for: the oscillator is the operation of its KIND code (O31), and
the stages of START are the operations of FEN, ACALC and PSTRAT (O18). -/

namespace Sys2Proof.Machine

/-! ### The oscillator's one operation (R134) -/

/-- The operation that a KIND code decodes to gives the value of the oscillator for that code. -/
theorem exec_decodeKind (s : State) (loc : KindLoc) (a : OscArgs) {kind : BitVec 3} (hk : kind.toNat ≤ 5) :
    exec (decodeKind loc a kind) s = .next (returns (osc s.par kind a) s) := by
  have codes : ∀ k : BitVec 3, k.toNat ≤ 5 → k = 0#3 ∨ k = 1#3 ∨ k = 2#3 ∨ k = 3#3 ∨ k = 4#3 ∨ k = 5#3 := by decide
  obtain rfl | rfl | rfl | rfl | rfl | rfl := codes kind hk <;> rfl

/-- Settles O31: each waveform is its formula by definition, and the oscillator is the operation of its KIND code. -/
theorem waveformValues : Obligations.WaveformValues := by
  intro s a
  exact ⟨rfl, rfl, rfl, rfl, rfl, rfl, fun loc kind hk => exec_decodeKind s loc a hk⟩

/-! ### START (R223) -/

theorem exec_start_of_validate {s : State} (hrun : s.status.run = false) (hv : validate s = none) :
    exec .start s = .next (startSession s) := by
  have hop : startOp s = startSession s := by simp [startOp, hrun, hv]
  exact congrArg Host.Outcome.next hop

/-- ALPHA has passed its check where START takes it as the host wrote it (R194, R252 code 0x08). -/
theorem inUnitPos_alpha_of_validate {s : State} (hv : validate s = none) (hf : ctrlFen s.ctrl = true)
    (ha : ctrlAcalc s.ctrl = false) : inUnitPos s.alpha = true := by
  simp only [validate, Option.or_eq_none_iff] at hv
  obtain ⟨⟨-, hcheck⟩, -⟩ := hv
  simpa [checkAlpha, plainCheck, hf, ha] using hcheck

theorem ctrl_alphaStage (s : State) : (alphaStage s).ctrl = s.ctrl := by
  unfold alphaStage
  split <;> rfl

theorem combinedPeriod_alphaStage (s : State) : combinedPeriod (alphaStage s) = combinedPeriod s := by
  unfold alphaStage
  split <;> rfl

/-- The operation that FEN and ACALC select is START's stage of ALPHA, where ALPHA passes the check of ALPHA_DIRECT. -/
theorem exec_of_decodeAlpha_eq_ok {s : State} {op : Instr}
    (h : decodeAlpha (ctrlFen s.ctrl) (ctrlAcalc s.ctrl) = .ok op)
    (halpha : ctrlFen s.ctrl = true → ctrlAcalc s.ctrl = false → inUnitPos s.alpha = true) :
    exec op s = .next (alphaStage s) := by
  unfold alphaStage
  cases hf : ctrlFen s.ctrl <;> cases ha : ctrlAcalc s.ctrl <;> rw [hf, ha] at h <;> cases h
  · exact congrArg Host.Outcome.next (if_pos (halpha hf ha))
  · rfl

theorem alphaStage_of_decodeAlpha_eq_error {s : State} {e : Reject}
    (h : decodeAlpha (ctrlFen s.ctrl) (ctrlAcalc s.ctrl) = .error e) : alphaStage s = s := by
  unfold alphaStage
  cases hf : ctrlFen s.ctrl with
  | false => rfl
  | true => cases ha : ctrlAcalc s.ctrl <;> rw [hf, ha] at h <;> cases h

/-- The operation that PSTRAT selects is START's stage of PEAK (R99). -/
theorem exec_decodePstrat {s : State} {c : BitVec 8} (hc : s.ctrl = c) :
    exec (decodePstrat (ctrlPstrat c)) s = .next (peakStage s) := by
  subst hc
  unfold peakStage
  cases ctrlPstrat s.ctrl <;> rfl

theorem constantsStage_mix {s : State} (hmix : ctrlMode s.ctrl = 0#2) :
    constantsStage s = peakStage { s with cperiod := BitVec.ofNat 32 (combinedPeriod s) } :=
  if_pos hmix

/-- Settles O18: the stages of START are the operations selected. -/
theorem startRunsSelectedOperations : Obligations.StartRunsSelectedOperations := by
  intro s hrun hv hmix
  have hctrl : (alphaStage (clearSession s)).ctrl = s.ctrl := ctrl_alphaStage (clearSession s)
  have hperiod : combinedPeriod (alphaStage (clearSession s)) = combinedPeriod s :=
    combinedPeriod_alphaStage (clearSession s)
  refine ⟨alphaStage (clearSession s), _, ?_, exec_decodePstrat hctrl, ?_⟩
  · split
    · next hop => exact exec_of_decodeAlpha_eq_ok (s := clearSession s) hop (inUnitPos_alpha_of_validate hv)
    · next herr => exact alphaStage_of_decodeAlpha_eq_error (s := clearSession s) herr
  · rw [exec_start_of_validate hrun hv, startSession, constantsStage_mix (hctrl ▸ hmix), hperiod]
    rfl

end Sys2Proof.Machine
end

section
/-! PROOFS. The oscillator's phase (O32): the remainder lies in [+0.0, period), and the quotient of a finite value and a
greater one does not round up to 1. -/

namespace Sys2Proof.Machine

/-! ### The domain (R121) -/

theorem isFinite_of_not_inf {x : F32} (hnan : isNaN x = false) (hinf : isInf x = false) : isFinite x = true := by
  simp only [isNaN, isInf, isFinite, decide_eq_true_eq, decide_eq_false_iff_not] at *
  omega

theorem isPosFinite_iff {f : F32} : isPosFinite f = true ↔ isFinite f = true ∧ 0 < fInt f := by
  have hgt : fgt f ZERO = true ↔ isNaN f = false ∧ 0 < fKey f := by simp [fgt, flt, isNaN, fKey, fMag, fSign, ZERO]
  have hzero : isFinite ZERO = true := by decide
  have hpos (hf : isFinite f = true) : 0 < fKey f ↔ 0 < fInt f := fKey_lt_iff hzero hf
  rw [isPosFinite, Bool.and_eq_true, hgt, Bool.not_eq_true']
  constructor
  · rintro ⟨⟨hnan, hkey⟩, hne⟩
    have hinf : isInf f = false := by
      refine Bool.eq_false_of_not_eq_true fun h => ?_
      obtain rfl | rfl := (isInf_iff f).1 h
      · exact absurd hne (by decide)
      · exact absurd hkey (by decide)
    have hf := isFinite_of_not_inf hnan hinf
    exact ⟨hf, (hpos hf).1 hkey⟩
  · rintro ⟨hf, h⟩
    obtain ⟨-, -, -, -, hinf, -⟩ := compare_inf (isNaN_of_finite hf)
    have hne : ¬ feq f INF = true := by
      rw [hinf]
      rintro rfl
      exact absurd hf (by decide)
    exact ⟨⟨isNaN_of_finite hf, (hpos hf).2 h⟩, Bool.eq_false_of_not_eq_true hne⟩


theorem fSign_eq_false_of_pos {x : F32} (h : 0 < fInt x) : fSign x = false := by
  refine Bool.eq_false_of_not_eq_true fun hs => ?_
  rw [fInt, if_pos hs] at h
  omega

theorem fInt_of_fSign_eq_false {x : F32} (h : fSign x = false) : fInt x = fUnits x := by
  rw [fInt, if_neg (by simp [h])]

theorem fUnits_pos {x : F32} (h : 0 < fInt x) : 0 < fUnits x := by
  rw [fInt_of_fSign_eq_false (fSign_eq_false_of_pos h)] at h
  exact_mod_cast h

theorem fSign_of_isClock {x : F32} (h : isClock x = true) : fSign x = false := by
  obtain ⟨n, -, rfl⟩ := exists_float_of_isClock h
  exact fSign_float n

theorem isFinite_of_isClock {x : F32} (h : isClock x = true) : isFinite x = true := by
  obtain ⟨n, hn, rfl⟩ := exists_float_of_isClock h
  exact isFinite_float hn

/-- A clock pattern other than `+0.0` is at least 1. -/
theorem le_fUnits_of_isClock {x : F32} (h : isClock x = true) (h0 : x ≠ 0#32) : 2 ^ 149 ≤ fUnits x := by
  obtain ⟨n, hn, rfl⟩ := exists_float_of_isClock h
  have hn0 : n ≠ 0 := by rintro rfl; exact h0 (by decide)
  rw [fUnits_float hn]
  exact Nat.le_mul_of_pos_left _ (Nat.pos_of_ne_zero hn0)

/-- The operands of the domain as numbers. -/
theorem OscArgs.wf_cases {a : OscArgs} (h : a.wf = true) :
    isClock a.pos = true ∧ isClock a.sr = true ∧ 2 ^ 149 ≤ fUnits a.sr ∧ isFinite a.f = true ∧ 0 < fInt a.f := by
  simp only [OscArgs.wf, Bool.and_eq_true, decide_eq_true_eq] at h
  obtain ⟨⟨⟨hpos, hsr⟩, hsr0⟩, hf⟩ := h
  exact ⟨hpos, hsr, le_fUnits_of_isClock hsr hsr0, isPosFinite_iff.1 hf⟩

/-! ### Quotients of values without a sign -/

theorem fdiv_of_pos {x y : F32} (hx : isFinite x = true) (hsx : fSign x = false) (hy : isFinite y = true)
    (hy0 : 0 < fInt y) : fdiv x y = packSign false (roundMag (fUnits x * 2 ^ 149) (fUnits y)) := by
  have hz : isZero y = false := decide_eq_false ((fMag_eq_zero_iff hy).not.1 (fUnits_pos hy0).ne')
  simp [fdiv, isNaN_of_finite hx, isNaN_of_finite hy, isInf_of_finite hx, isInf_of_finite hy, hz, hsx,
    fSign_eq_false_of_pos hy0]

theorem fUnits_lt {x : F32} (h : isFinite x = true) : fUnits x < 2 ^ 24 * 2 ^ 253 := by
  obtain ⟨s, e, hs, he, hu⟩ := exists_fUnits h
  calc fUnits x = s * 2 ^ e := hu
    _ < 2 ^ 24 * 2 ^ e := Nat.mul_lt_mul_of_pos_right hs (Nat.two_pow_pos e)
    _ ≤ 2 ^ 24 * 2 ^ 253 := Nat.mul_le_mul_left _ (Nat.pow_le_pow_right (by norm_num) he)

/-- A finite value and a greater one differ by at least the 2^24-th part of the greater. -/
theorem fUnits_mul_le_of_lt {x y : F32} (h : fMag x < fMag y) : fUnits x * 2 ^ 24 ≤ (2 ^ 24 - 1) * fUnits y := by
  obtain ⟨s, e, -, hs, -, hx, hnext⟩ := exists_significand (fMag x)
  have hy : (s + 1) * 2 ^ e ≤ fUnits y := hnext ▸ magUnits_strictMono.monotone h
  calc fUnits x * 2 ^ 24 = s * 2 ^ 24 * 2 ^ e := by rw [fUnits_eq_magUnits, hx]; ring
    _ ≤ (2 ^ 24 - 1) * (s + 1) * 2 ^ e := Nat.mul_le_mul_right _ (by omega)
    _ = (2 ^ 24 - 1) * ((s + 1) * 2 ^ e) := by ring
    _ ≤ (2 ^ 24 - 1) * fUnits y := Nat.mul_le_mul_left _ hy

/-- The quotient of two finite values of which the divisor is the greater is at most the greatest value below 1. -/
theorem fMag_fdiv_le_of_lt {x y : F32} (hx : isFinite x = true) (hy : isFinite y = true) (h : fMag x < fMag y) :
    fMag (fdiv x y) ≤ 0x3F7FFFFF := by
  have hlast : isFinite 0x3F7FFFFF#32 = true := by decide
  have hunits : fUnits 0x3F7FFFFF#32 = (2 ^ 24 - 1) * 2 ^ 125 := by decide +kernel
  have hmag : fMag 0x3F7FFFFF#32 = 0x3F7FFFFF := by decide
  have hy0 : 0 < fUnits y := Nat.pos_of_ne_zero ((fMag_eq_zero_iff hy).not.2 (by omega))
  refine hmag ▸ fMag_fdiv_le hx hy hy0 hlast ?_
  calc fUnits x * 2 ^ 149 = fUnits x * 2 ^ 24 * 2 ^ 125 := by rw [Nat.mul_assoc, ← pow_add]
    _ ≤ (2 ^ 24 - 1) * fUnits y * 2 ^ 125 := Nat.mul_le_mul_right _ (fUnits_mul_le_of_lt h)
    _ = fUnits 0x3F7FFFFF#32 * fUnits y := by rw [hunits, Nat.mul_right_comm]

/-! ### The phase (R122, R123) -/

section
variable {a : OscArgs} (h : a.wf = true)
include h

theorem period_eq : fdiv a.sr a.f = packSign false (roundMag (fUnits a.sr * 2 ^ 149) (fUnits a.f)) := by
  obtain ⟨-, hsr, -, hf, hf0⟩ := OscArgs.wf_cases h
  exact fdiv_of_pos (isFinite_of_isClock hsr) (fSign_of_isClock hsr) hf hf0

theorem fSign_period : fSign (fdiv a.sr a.f) = false := by
  rw [period_eq h, fSign_packSign _ (roundMag_lt _ _)]

/-- No frequency is so high that the period is rounded to 0: `sr ≥ 1`, and `f` is below 2^128. -/
theorem fMag_period_pos : 0 < fMag (fdiv a.sr a.f) := by
  obtain ⟨-, -, hsr, hf, hf0⟩ := OscArgs.wf_cases h
  have hlt := fUnits_lt hf
  have hmin : isFinite 0x00000001#32 = true := by decide
  rw [period_eq h, fMag_packSign _ (roundMag_lt _ _)]
  refine Nat.lt_of_lt_of_le (by decide) (le_roundMag (x := 0x00000001#32) (fUnits_pos hf0) hmin ?_)
  have hone : fUnits 0x00000001#32 = 1 := by decide
  rw [hone]
  omega

/-- The period is infinite or a finite value above 0. -/
theorem period_cases :
    fdiv a.sr a.f = INF ∨ isFinite (fdiv a.sr a.f) = true ∧ 0 < fInt (fdiv a.sr a.f) := by
  have hsign := fSign_period h
  have hmag := fMag_period_pos h
  have hle : fMag (fdiv a.sr a.f) ≤ 0x7F800000 := by
    rw [period_eq h, fMag_packSign _ (roundMag_lt _ _)]
    exact roundMag_le_inf _ _
  generalize fdiv a.sr a.f = p at *
  rcases hle.lt_or_eq with hlt | heq
  · have hfin : isFinite p = true := decide_eq_true hlt
    have hunits : fUnits p ≠ 0 := (fMag_eq_zero_iff hfin).not.2 hmag.ne'
    rw [fInt_of_fSign_eq_false hsign]
    exact .inr ⟨hfin, by omega⟩
  · exact .inl (f32_ext hsign heq)

/-- With an infinite period the position is the remainder and the phase is `+0.0`. -/
theorem phase_of_period_inf (hp : fdiv a.sr a.f = INF) : fmodx a.pos INF = a.pos ∧ phase a = ZERO := by
  obtain ⟨hpos, -⟩ := OscArgs.wf_cases h
  have hfin := isFinite_of_isClock hpos
  have hrem := fmodx_INF hfin
  refine ⟨hrem, ?_⟩
  have h1 : isNaN INF = false := by decide
  have h2 : isInf INF = true := by decide
  have h3 : fSign INF = false := by decide
  have hzero : packSign false 0 = ZERO := rfl
  rw [phase, hp, hrem]
  simp [fdiv, isNaN_of_finite hfin, isInf_of_finite hfin, fSign_of_isClock hpos, h1, h2, h3, hzero]

/-- With a finite period the remainder is a finite value in [+0.0, period). -/
theorem remainder_of_period_finite (hp : isFinite (fdiv a.sr a.f) = true) (hp0 : 0 < fInt (fdiv a.sr a.f)) :
    isFinite (fmodx a.pos (fdiv a.sr a.f)) = true ∧ fSign (fmodx a.pos (fdiv a.sr a.f)) = false ∧
      fInt (fmodx a.pos (fdiv a.sr a.f)) < fInt (fdiv a.sr a.f) := by
  obtain ⟨hpos, -⟩ := OscArgs.wf_cases h
  have hfin := isFinite_of_isClock hpos
  have hne := (fUnits_pos hp0).ne'
  refine ⟨isFinite_fmodx hfin hp hne, ?_, ?_⟩
  · rw [fSign_fmodx hfin hp hne, fSign_of_isClock hpos]
  · rw [fInt_fmodx hfin hp hne]
    exact Int.tmod_lt_of_pos _ hp0

theorem phase_fields : fSign (phase a) = false ∧ fMag (phase a) ≤ 0x3F7FFFFF := by
  obtain hp | ⟨hp, hp0⟩ := period_cases h
  · rw [(phase_of_period_inf h hp).2]
    decide
  · obtain ⟨hr, hsr, hlt⟩ := remainder_of_period_finite h hp hp0
    refine ⟨?_, fMag_fdiv_le_of_lt hr hp ?_⟩
    · rw [phase, fdiv_of_pos hr hsr hp hp0, fSign_packSign _ (roundMag_lt _ _)]
    · rw [fInt_of_fSign_eq_false hsr, fInt_of_fSign_eq_false (fSign_eq_false_of_pos hp0)] at hlt
      exact not_le.1 fun hle => absurd ((fUnits_le_iff hp hr).2 hle) (by omega)

/-- A phase is a pattern from `+0.0` to 1 - 2^-24. -/
theorem toNat_phase_le : (phase a).toNat ≤ 0x3F7FFFFF := by
  obtain ⟨hs, hm⟩ := phase_fields h
  have : ¬ 2 ^ 31 ≤ (phase a).toNat := of_decide_eq_false hs
  rw [fMag] at hm
  omega

end

theorem fdiv_zero_of_pos {p : F32} (hp : isFinite p = true) (hp0 : 0 < fInt p) : fdiv ZERO p = ZERO := by
  have hunits : fUnits ZERO = 0 := by decide
  rw [fdiv_of_pos (by decide) (by decide) hp hp0, hunits, Nat.zero_mul, roundMag_zero]
  rfl

/-- Settles O32: the period is infinite, and the phase then is `+0.0`, or it is finite, and the phase then is the quotient
of a remainder and a greater period. -/
theorem phaseStaysBelowOne : Obligations.PhaseStaysBelowOne := by
  intro a h period r t
  have ht : t.toNat ≤ 0x3F7FFFFF := toNat_phase_le h
  obtain hp | ⟨hp, hp0⟩ := period_cases h
  · obtain ⟨hrem, hphase⟩ := phase_of_period_inf h hp
    obtain ⟨hpos, -⟩ := OscArgs.wf_cases h
    have hfin := isFinite_of_isClock hpos
    have hperiod : period = INF := hp
    have hr : r = a.pos := (congrArg (fmodx a.pos) hp).trans hrem
    have hne : a.pos ≠ INF := by intro he; rw [he] at hfin; exact absurd hfin (by decide)
    obtain ⟨hlt, -⟩ := compare_inf (isNaN_of_finite hfin)
    rw [hperiod, hr]
    exact ⟨by decide, fun _ => rfl, fSign_of_isClock hpos, hlt.2 hne, ht, fun _ => hphase⟩
  · obtain ⟨hr, hsr, hlt⟩ := remainder_of_period_finite h hp hp0
    have hinf : period ≠ INF := by
      intro he
      have : isFinite INF = true := he ▸ hp
      exact absurd this (by decide)
    refine ⟨(flt_iff (by decide) hp).2 hp0, fun he => absurd he hinf, hsr, (flt_iff hr hp).2 hlt, ht, ?_⟩
    rintro (h0 | he)
    · exact (congrArg (fdiv · period) h0).trans (fdiv_zero_of_pos hp hp0)
    · exact absurd he hinf

end Sys2Proof.Machine
end

section
/-! PROOFS. The sine unit (O35) and the waveforms: their range (O33) and their repetition after an integer period (O34).
Rounding is monotone, so a result whose exact value lies between two finite patterns lies between them too. -/

namespace Sys2Proof.Machine

/-! ### Results between two finite values -/

theorem RoundsTo.isFinite_of_le {r y : F32} {N : Int} {d : Nat} (h : RoundsTo r N d) (hd : 0 < d)
    (hy : isFinite y = true) (hN : N.natAbs ≤ (fInt y * d).natAbs) : isFinite r = true := by
  obtain ⟨neg, -, -, rfl⟩ := h
  rw [Int.natAbs_mul, natAbs_fInt, Int.natAbs_natCast] at hN
  exact isFinite_of_fMag_le hy ((fMag_packSign _ (roundMag_lt _ _)).trans_le (roundMag_le hd hy hN))

/-- A result that is rounded once from between two finite values is finite and between them: no value between the exact one
and a nearest one is nearer. -/
theorem RoundsTo.between {r lo hi : F32} {N : Int} {d : Nat} (h : RoundsTo r N d) (hd : 0 < d)
    (hlo : isFinite lo = true) (hhi : isFinite hi = true) (h1 : fInt lo * d ≤ N) (h2 : N ≤ fInt hi * d) :
    isFinite r = true ∧ fInt lo ≤ fInt r ∧ fInt r ≤ fInt hi := by
  have hr : isFinite r = true := by
    rcases le_total 0 N with hN | hN
    · exact h.isFinite_of_le hd hhi (by omega)
    · exact h.isFinite_of_le hd hlo (by omega)
  have hd' : (0 : Int) < d := by omega
  have hnearLo := (h.nearest (y := lo) hd hr).1
  have hnearHi := (h.nearest (y := hi) hd hr).1
  exact ⟨hr, le_of_mul_le_mul_right (by omega) hd', le_of_mul_le_mul_right (by omega) hd'⟩

/-- [-1.0, 1.0] as an interval of values. -/
theorem inUnit_iff_fInt (x : F32) : inUnit x = true ↔ isFinite x = true ∧ fInt (fneg ONE) ≤ fInt x ∧ fInt x ≤ fInt ONE := by
  have h1 : isFinite ONE = true := by decide
  have h2 : isFinite (fneg ONE) = true := by decide
  constructor
  · intro h
    have hx : isFinite x = true := isFinite_of_fMag_le h1 ((inUnit_iff x).1 h)
    rw [inUnit, Bool.and_eq_true, fle_iff h2 hx, fle_iff hx h1] at h
    exact ⟨hx, h⟩
  · rintro ⟨hx, h⟩
    rw [inUnit, Bool.and_eq_true, fle_iff h2 hx, fle_iff hx h1]
    exact h

/-! ### The sine unit (R125) -/

/-- A finite argument has its sine in [-1, 1], since the reference caps the magnitude at that of ONE. -/
theorem inUnit_sineRef {t : F32} (ht : isFinite t = true) : inUnit (sineRef t) = true := by
  have hone : 0x3F800000 < 2 ^ 31 := by norm_num
  rw [inUnit_iff, sineRef, if_pos ht]
  dsimp only
  split
  · decide
  · rw [fMag_packSign _ (by omega)]
    exact min_le_right _ _

theorem isFinite_of_toNat_le {t : F32} (ht : t.toNat ≤ 0x3F7FFFFF) : isFinite t = true := by
  rw [isFinite, decide_eq_true_eq, fMag]
  omega

/-- The clauses of `sineLegal`: R125 (a), (b) for the listed arguments, and (c). -/
theorem sineLegal_iff (p : Params) :
    sineLegal p = true ↔
      sineFn p ZERO = ZERO ∧ (∀ e ∈ p.sine, e.1.toNat ≤ 0x3F7FFFFF → inUnit e.2 = true) ∧ isFinite p.sineTol = true ∧
        fSign p.sineTol = false ∧ unitsApart (sineFn p QUARTER) ONE ≤ fUnits p.sineTol ∧
        unitsApart (sineFn p HALF) ZERO ≤ fUnits p.sineTol ∧
        unitsApart (sineFn p 0x3F400000#32) (fneg ONE) ≤ fUnits p.sineTol := by
  simp only [sineLegal, Bool.and_eq_true, decide_eq_true_eq, List.all_eq_true, Bool.or_eq_true, Bool.not_eq_true',
    or_iff_not_imp_left, not_lt, and_assoc]

theorem paramsLegal_cases {p : Params} (h : paramsLegal p = true) :
    isPosFinite p.fmEps = true ∧ sineLegal p = true := by
  simp only [paramsLegal, Bool.and_eq_true] at h
  obtain ⟨⟨⟨⟨-, hfin⟩, hpos⟩, hsine⟩, -⟩ := h
  exact ⟨isPosFinite_iff.2 ⟨hfin, (flt_iff (by decide) hfin).1 hpos⟩, hsine⟩

/-- On the phases every legal sine unit stays in [-1, 1]: where it departs from the reference by (b), elsewhere since the
reference does. -/
theorem inUnit_sineFn {p : Params} (hp : sineLegal p = true) {t : F32} (ht : t.toNat ≤ 0x3F7FFFFF) :
    inUnit (sineFn p t) = true := by
  obtain ⟨-, hlist, -⟩ := (sineLegal_iff p).1 hp
  rw [sineFn]
  cases hv : p.sine.lookup t with
  | none => exact inUnit_sineRef (isFinite_of_toNat_le ht)
  | some v =>
    obtain ⟨l₁, l₂, hsplit, -⟩ := List.lookup_eq_some_iff.1 hv
    exact hlist (t, v) (by simp [hsplit]) ht

/-- Settles O35: the clauses on a legal unit are those that legality asks for, and the reference is evaluated. -/
theorem sineUnitProperties : Obligations.SineUnitProperties := by
  refine ⟨fun p hp => ?_, by decide +kernel, by decide +kernel, by decide +kernel, by decide +kernel⟩
  have hlegal := (paramsLegal_cases hp).2
  obtain ⟨hzero, -, -, -, hquarter, hhalf, hthree⟩ := (sineLegal_iff p).1 hlegal
  refine ⟨hzero, fun t => inUnit_sineFn hlegal, hquarter, ?_, ?_⟩
  · rw [← natAbs_fInt]
    simpa [unitsApart, show fInt ZERO = 0 by decide] using hhalf
  · simpa only [unitsApart, fInt_fneg, sub_neg_eq_add] using hthree

/-! ### Waveforms (R126 to R131) -/

theorem fsub_between {a b lo hi : F32} (ha : isFinite a = true) (hb : isFinite b = true) (hlo : isFinite lo = true)
    (hhi : isFinite hi = true) (h1 : fInt lo ≤ fInt a - fInt b) (h2 : fInt a - fInt b ≤ fInt hi) :
    isFinite (fsub a b) = true ∧ fInt lo ≤ fInt (fsub a b) ∧ fInt (fsub a b) ≤ fInt hi :=
  (fsub_roundsTo ha hb).between Nat.one_pos hlo hhi (by simpa using h1) (by simpa using h2)

/-- A product with an integer `c` held in a pattern. -/
theorem fmul_between {k b lo hi : F32} {c : Int} (hc : fInt k = c * 2 ^ 149) (hk : isFinite k = true)
    (hb : isFinite b = true) (hlo : isFinite lo = true) (hhi : isFinite hi = true) (h1 : fInt lo ≤ c * fInt b)
    (h2 : c * fInt b ≤ fInt hi) : isFinite (fmul k b) = true ∧ fInt lo ≤ fInt (fmul k b) ∧ fInt (fmul k b) ≤ fInt hi := by
  refine (fmul_roundsTo hk hb).between (Nat.two_pow_pos 149) hlo hhi ?_ ?_ <;>
    rw [hc, mul_right_comm, Nat.cast_pow, Nat.cast_ofNat]
  · exact mul_le_mul_of_nonneg_right h1 (by positivity)
  · exact mul_le_mul_of_nonneg_right h2 (by positivity)

theorem fInt_constants :
    fInt ZERO = 0 ∧ fInt QUARTER = 2 ^ 147 ∧ fInt (fneg QUARTER) = -2 ^ 147 ∧ fInt HALF = 2 ^ 148 ∧ fInt ONE = 2 ^ 149 ∧
      fInt (fneg ONE) = -2 ^ 149 ∧ fInt TWO = 2 * 2 ^ 149 ∧ fInt FOUR = 4 * 2 ^ 149 := by
  decide +kernel

theorem isFinite_constants :
    isFinite ZERO = true ∧ isFinite QUARTER = true ∧ isFinite (fneg QUARTER) = true ∧ isFinite HALF = true ∧
      isFinite ONE = true ∧ isFinite (fneg ONE) = true ∧ isFinite TWO = true ∧ isFinite FOUR = true := by
  decide

section
variable {a : OscArgs} (h : a.wf = true)
include h

/-- A phase as a number: at least 0 and at most 1 - 2^-24. -/
theorem fInt_phase : isFinite (phase a) = true ∧ 0 ≤ fInt (phase a) ∧ fInt (phase a) ≤ (2 ^ 24 - 1) * 2 ^ 125 := by
  obtain ⟨hsign, hmag⟩ := phase_fields h
  have hlast : isFinite 0x3F7FFFFF#32 = true := by decide
  have hunits : fUnits 0x3F7FFFFF#32 = (2 ^ 24 - 1) * 2 ^ 125 := by decide +kernel
  have hle : fMag (phase a) ≤ fMag 0x3F7FFFFF#32 := hmag
  have hfin := isFinite_of_fMag_le hlast hle
  have hle' := (fUnits_le_iff hfin hlast).2 hle
  rw [fInt_of_fSign_eq_false hsign]
  exact ⟨hfin, by omega, by omega⟩

/-- `2·t` is at most 2 - 2^-23, so that `1 - 2·t` is at least -1 + 2^-23. -/
theorem waveSawtooth_between :
    isFinite (waveSawtooth a) = true ∧ fInt 0xBF7FFFFE#32 ≤ fInt (waveSawtooth a) ∧ fInt (waveSawtooth a) ≤ fInt ONE := by
  obtain ⟨ht, ht0, ht1⟩ := fInt_phase h
  obtain ⟨c0, -, -, -, c1, -, c2, -⟩ := fInt_constants
  obtain ⟨f0, -, -, -, f1, -, f2, -⟩ := isFinite_constants
  have htop : fInt 0x3FFFFFFF#32 = (2 ^ 24 - 1) * 2 ^ 126 := by decide +kernel
  have hbot : fInt 0xBF7FFFFE#32 = -((2 ^ 24 - 2) * 2 ^ 125) := by decide +kernel
  obtain ⟨hu, hu0, hu1⟩ := fmul_between c2 f2 ht f0 (hi := 0x3FFFFFFF#32) (by decide) (by omega) (by omega)
  exact fsub_between f1 hu (by decide) f1 (by omega) (by omega)

/-- `4·(t - 1/4)` below the middle, where `t - 1/4` is in [-1/4, 1/4], and `1 - 4·(t - 1/2)` from it on, where `t - 1/2` is in
[0, 1/2]. -/
theorem inUnit_waveTriangle : inUnit (waveTriangle a) = true := by
  obtain ⟨ht, ht0, ht1⟩ := fInt_phase h
  obtain ⟨c0, cq, cq', ch, c1, c1', c2, c4⟩ := fInt_constants
  obtain ⟨f0, fq, fq', fh, f1, f1', f2, f4⟩ := isFinite_constants
  rw [inUnit_iff_fInt, waveTriangle]
  split
  · next hlt =>
    rw [flt_iff ht fh] at hlt
    obtain ⟨hu, hu0, hu1⟩ := fsub_between ht fq fq' fq (by omega) (by omega)
    exact fmul_between c4 f4 hu f1' f1 (by omega) (by omega)
  · next hge =>
    rw [flt_iff ht fh] at hge
    obtain ⟨hu, hu0, hu1⟩ := fsub_between ht fh f0 fh (by omega) (by omega)
    obtain ⟨hv, hv0, hv1⟩ := fmul_between c4 f4 hu f0 f2 (by omega) (by omega)
    exact fsub_between f1 hv f1' f1 (by omega) (by omega)

end

theorem waveSquare_cases (a : OscArgs) : waveSquare a = ONE ∨ waveSquare a = fneg ONE := by
  unfold waveSquare; split <;> simp

theorem waveOnOff_cases (a : OscArgs) : waveOnOff a = ONE ∨ waveOnOff a = ZERO := by
  unfold waveOnOff; split <;> simp

/-! ### The oscillator (R134) -/

/-- The six KIND codes that are not reserved. -/
theorem kind_cases {kind : BitVec 3} (hk : kind.toNat ≤ 5) :
    kind = 0#3 ∨ kind = 1#3 ∨ kind = 2#3 ∨ kind = 3#3 ∨ kind = 4#3 ∨ kind = 5#3 := by
  revert kind; decide

/-- The value of an oscillator call in the domain is a number in [-1, 1] (R137). -/
theorem inUnit_osc {p : Params} {kind : BitVec 3} {a : OscArgs} (hp : sineLegal p = true) (hk : kind.toNat ≤ 5)
    (ha : kind ≠ 0#3 → a.wf = true) : inUnit (osc p kind a) = true := by
  obtain rfl | rfl | rfl | rfl | rfl | rfl := kind_cases hk
  · show inUnit waveSilence = true
    decide
  · exact inUnit_sineFn hp (toNat_phase_le (ha (by decide)))
  · show inUnit (waveSquare a) = true
    obtain he | he := waveSquare_cases a <;> rw [he] <;> decide
  · obtain ⟨hfin, hlo, hhi⟩ := waveSawtooth_between (ha (by decide))
    have hbot : fInt (fneg ONE) ≤ fInt 0xBF7FFFFE#32 := by decide +kernel
    exact (inUnit_iff_fInt _).2 ⟨hfin, hbot.trans hlo, hhi⟩
  · exact inUnit_waveTriangle (ha (by decide))
  · show inUnit (waveOnOff a) = true
    obtain he | he := waveOnOff_cases a <;> rw [he] <;> decide

/-- Settles O33: the range of each waveform, and Sawtooth's own lower bound. -/
theorem oscillatorRange : Obligations.OscillatorRange := by
  intro p kind a hp hk ha
  refine ⟨inUnit_osc (paramsLegal_cases hp).2 hk ha, ?_, ?_, ?_, ?_⟩
  · rintro rfl; rfl
  · rintro rfl; exact waveSquare_cases a
  · rintro rfl; exact waveOnOff_cases a
  · rintro rfl
    obtain ⟨hfin, hlo, -⟩ := waveSawtooth_between (ha (by decide))
    exact (fle_iff (by decide) hfin).2 hlo

/-! ### Periodicity (R132) -/

/-- The waveforms other than Silence read their operands through the phase alone. -/
theorem osc_congr_phase {p : Params} {kind : BitVec 3} {a b : OscArgs} (h1 : 1 ≤ kind.toNat) (h5 : kind.toNat ≤ 5)
    (hphase : phase a = phase b) : osc p kind a = osc p kind b := by
  have hsine : waveSine p a = waveSine p b := by rw [waveSine, hphase, waveSine]
  have hsquare : waveSquare a = waveSquare b := by rw [waveSquare, hphase, waveSquare]
  have hsawtooth : waveSawtooth a = waveSawtooth b := by rw [waveSawtooth, hphase, waveSawtooth]
  have htriangle : waveTriangle a = waveTriangle b := by rw [waveTriangle, hphase, waveTriangle]
  have honoff : waveOnOff a = waveOnOff b := by rw [waveOnOff, hphase, waveOnOff]
  obtain rfl | rfl | rfl | rfl | rfl | rfl := kind_cases h5
  · exact absurd h1 (by decide)
  · exact hsine
  · exact hsquare
  · exact hsawtooth
  · exact htriangle
  · exact honoff

/-- A position one period later leaves the same remainder. -/
theorem fmodx_add_period {x y p : F32} (hx : isFinite x = true) (hy : isFinite y = true) (hp : isFinite p = true)
    (hp0 : fUnits p ≠ 0) (hsign : fSign y = fSign x) (hadd : fUnits y = fUnits x + fUnits p) : fmodx y p = fmodx x p := by
  rw [fmodx_of_finite hy hp hp0, fmodx_of_finite hx hp hp0, hsign, hadd, Nat.add_mod_right]

/-- Settles O34: the two positions have one remainder, so one phase. -/
theorem integerPeriodRepeats : Obligations.IntegerPeriodRepeats := by
  intro p kind a pos' h1 h5 ha hp _ hpos' hadd
  obtain ⟨hpos, -⟩ := OscArgs.wf_cases ha
  have hp0 : fUnits (fdiv a.sr a.f) ≠ 0 := (fMag_eq_zero_iff hp).not.2 (fMag_period_pos ha).ne'
  have hrem : fmodx pos' (fdiv a.sr a.f) = fmodx a.pos (fdiv a.sr a.f) :=
    fmodx_add_period (isFinite_of_isClock hpos) (isFinite_of_isClock hpos') hp hp0
      ((fSign_of_isClock hpos').trans (fSign_of_isClock hpos).symm) hadd
  exact osc_congr_phase h1 h5 (congrArg (fdiv · (fdiv a.sr a.f)) hrem)

end Sys2Proof.Machine
end

section
/-! PROOFS. The calls of the oscillator in frames and in the peak search are in its domain (O46), by the checks that START
has made. -/

namespace Sys2Proof.Machine

/-! ### What a validated configuration has (R252) -/

theorem validate_eq_none_iff (s : State) :
    validate s = none ↔
      checkMode s = none ∧ checkSrate s = none ∧ checkClkmod s = none ∧ checkKind s = none ∧ checkFreq s = none ∧
        checkDepth s = none ∧ checkCutoff s = none ∧ checkAlpha s = none ∧ checkVolume s = none := by
  simp only [validate, Option.or_eq_none_iff, and_assoc]

theorem plainCheck_eq_none_iff (code : BitVec 8) (fails : Bool) : plainCheck code fails = none ↔ fails = false := by
  cases fails <;> simp [plainCheck]

theorem slotCheck_eq_none_iff (code : BitVec 8) (base : Nat) (slots : List OscSlot) (fails : OscSlot → Bool) :
    slotCheck code base slots fails = none ↔ ∀ o ∈ slots, fails o = false := by
  simp [slotCheck, List.findIdx?_eq_none_iff]

section
variable {s : State} (hv : validate s = none)
include hv

theorem mode_ne_three_of_validate : ctrlMode s.ctrl ≠ 3#2 := by
  obtain ⟨hmode, -⟩ := (validate_eq_none_iff s).1 hv
  simpa [checkMode, plainCheck_eq_none_iff] using hmode

theorem srate_of_validate : 1 ≤ s.srate.toNat ∧ s.srate.toNat ≤ 2 ^ 24 := by
  obtain ⟨-, hsrate, -⟩ := (validate_eq_none_iff s).1 hv
  rw [checkSrate, plainCheck_eq_none_iff] at hsrate
  simp only [Bool.or_eq_false_iff, decide_eq_false_iff_not] at hsrate
  omega

theorem slot_of_validate (hreads : readsSlots s = true) {o : OscSlot} (ho : o ∈ s.osc) :
    o.kind.toNat ≤ 5 ∧ (o.kind ≠ 0#3 → isPosFinite o.freq = true) := by
  obtain ⟨-, -, -, hkind, hfreq, -⟩ := (validate_eq_none_iff s).1 hv
  rw [checkKind, if_pos hreads, slotCheck_eq_none_iff] at hkind
  rw [checkFreq, if_pos hreads, slotCheck_eq_none_iff] at hfreq
  have hk : o.kind.toNat ≤ 5 := by
    have := of_decide_eq_false (hkind o ho)
    omega
  refine ⟨hk, fun h0 => ?_⟩
  have h1 : 1 ≤ o.kind.toNat := Nat.pos_of_ne_zero fun h => h0 (BitVec.eq_of_toNat_eq h)
  simpa [takesPart, h1, hk] using hfreq o ho

theorem vkind_of_validate (hmode : ctrlMode s.ctrl = 2#2) : (ctrlVkind s.ctrl).toNat ≤ 5 := by
  obtain ⟨-, -, -, hkind, -⟩ := (validate_eq_none_iff s).1 hv
  have hreads : readsSlots s = false := by simp [readsSlots, hmode]
  simp [checkKind, hreads, hmode, reservedKind] at hkind
  omega

/-! ### Operands of a call -/

/-- With a clock position and a usable frequency a call is in the domain. -/
theorem wf_call {pos f : F32} (hpos : isClock pos = true) (hf : isPosFinite f = true) :
    OscArgs.wf ⟨pos, sampleRate s, f⟩ = true := by
  obtain ⟨h1, h24⟩ := srate_of_validate hv
  have hne : sampleRate s ≠ 0#32 := by
    intro h0
    have hunits := fUnits_float h24
    rw [show float s.srate.toNat = 0#32 from h0, show fUnits 0#32 = 0 by decide] at hunits
    omega
  simp [OscArgs.wf, hpos, hf, hne, show isClock (sampleRate s) = true from isClock_float h24]

theorem wf_slot_call (hreads : readsSlots s = true) {o : OscSlot} (ho : o ∈ s.osc) {pos : F32} (hpos : isClock pos = true) :
    o.kind.toNat ≤ 5 ∧ (o.kind ≠ 0#3 → OscArgs.wf ⟨pos, sampleRate s, o.freq⟩ = true) := by
  obtain ⟨hk, hf⟩ := slot_of_validate hv hreads ho
  exact ⟨hk, fun h0 => wf_call hv hpos (hf h0)⟩

end

theorem isPosFinite_noteRom (n : BitVec 7) : isPosFinite (noteRom n) = true := by
  revert n; decide +kernel

/-- The clamp leaves a usable frequency: the sum where it passes the test, FM_EPS where it does not (R162). -/
theorem isPosFinite_fmClamped {s : State} (hp : paramsLegal s.par = true) (h0 : (carrier s).kind ≠ 0#3) :
    isPosFinite (fmClamped s) = true := by
  unfold fmClamped
  split
  · exact (paramsLegal_cases hp).1
  · next hdeg => simpa [fmDegenerate, h0, isPosFinite] using hdeg

theorem carrier_kind_of_validate {s : State} (hv : validate s = none) (hreads : readsSlots s = true) :
    (carrier s).kind.toNat ≤ 5 := by
  unfold carrier
  cases hosc : s.osc with
  | nil => decide
  | cons o l => exact (slot_of_validate hv hreads (by simp [hosc])).1

/-! ### The peak search -/

/-- Every step of the capped fold stays at most SRATE (R142). -/
theorem combinedPeriod_le {s : State} (h1 : 1 ≤ s.srate.toNat) : combinedPeriod s ≤ s.srate.toNat := by
  suffices ∀ (l : List OscSlot) (p : Nat), p ≤ s.srate.toNat → l.foldl (periodStep s) p ≤ s.srate.toNat from
    this s.osc 1 h1
  intro l
  induction l with
  | nil => exact fun p hp => hp
  | cons o l ih =>
    refine fun p hp => ih _ ?_
    unfold periodStep
    split
    · exact min_le_right _ _
    · exact hp

/-- Settles O46: the checks give kinds, rate and frequencies, the clock and the combined period the positions. -/
theorem oscillatorCallsAreInDomain : Obligations.OscillatorCallsAreInDomain := by
  intro s
  have reads (h : ctrlMode s.ctrl = 0#2 ∨ ctrlMode s.ctrl = 1#2) : readsSlots s = true := by
    simpa [readsSlots] using h
  refine ⟨fun hinv hrun hclk => ?_, fun hv hmode k hk o ho => ?_⟩
  · have hv := hinv.validated hrun
    have fm (hmode : ctrlMode s.ctrl = 1#2) (h0 : (carrier s).kind ≠ 0#3) :
        OscArgs.wf ⟨s.clk, sampleRate s, fmClamped s⟩ = true :=
      wf_call hv hclk (isPosFinite_fmClamped hinv.params h0)
    refine ⟨fun hmode o ho => ?_, fm, fun hmode => ⟨fmStage s, rfl, ?_⟩, fun hmode => ?_⟩
    · have modes : ∀ m : BitVec 2, m ≠ 2#2 → m ≠ 3#2 → m = 0#2 ∨ m = 1#2 := by decide
      exact wf_slot_call hv (reads (modes _ hmode (mode_ne_three_of_validate hv))) ho hclk
    · exact inUnit_osc (paramsLegal_cases hinv.params).2 (carrier_kind_of_validate hv (reads (.inr hmode))) (fm hmode)
    · exact ⟨vkind_of_validate hv hmode, fun n => wf_call hv hclk (isPosFinite_noteRom n)⟩
  · obtain ⟨h1, h24⟩ := srate_of_validate hv
    have hle := combinedPeriod_le h1
    exact wf_slot_call hv (reads (.inl hmode)) ho (isClock_float (by omega))

end Sys2Proof.Machine
end

section
/-! PROOFS. The reference sine is the sine to within 2^-24 (O36). The terms of the fixed-point series are those of the power
series to within 8 units of 2^-320, forty terms leave a remainder of at most 2^-38, the angle is exact to within 2^-50, and
the one rounding costs at most 2^-25. -/

namespace Sys2Proof.Machine

/-! ### The units of the series -/

/-- The scale of the series in Machine/Sine.lean, as a name: its numeral is too long to compute with. -/
def sineScale : Nat := 2 ^ 320

theorem sineSeries_succ (sq k j term : Nat) :
    sineSeries sq (k + 1) j term =
      term - sineSeries sq k (j + 1) (term * sq / sineScale / ((2 * j + 2) * (2 * j + 3))) := rfl

theorem sineTurn_eq (y : Nat) :
    sineTurn y = (sineSeries ((twoPi * y / 2 ^ 149) ^ 2 / sineScale) 40 0 (twoPi * y / 2 ^ 149)).toNat := rfl

theorem sineScale_split {i j : Nat} (h : i + j = 320) : sineScale = 2 ^ i * 2 ^ j := by
  rw [← pow_add, h]
  rfl

theorem sineScale_pos : (0 : ℝ) < sineScale := by
  rw [sineScale_split (i := 160) (j := 160) rfl]
  positivity

theorem inv_sineScale_le : (sineScale : ℝ)⁻¹ ≤ 1 / 2 ^ 160 := by
  rw [sineScale_split (i := 160) (j := 160) rfl]
  norm_num

/-- The constant of the model is 2π to within 2^-60. -/
theorem abs_twoPi_sub_le : |(twoPi : ℝ) / sineScale - 2 * Real.pi| ≤ 1 / 2 ^ 60 := by
  have hpi := Real.pi_gt_d20
  have hpi' := Real.pi_lt_d20
  have hlo : 7417875925070973790601 * 2 ^ 250 ≤ twoPi := by decide +kernel
  have hhi : twoPi ≤ 7417875925070973790602 * 2 ^ 250 := by decide +kernel
  have hscale : (sineScale : ℝ) = 2 ^ 70 * 2 ^ 250 := by
    rw [sineScale_split (i := 70) (j := 250) rfl, Nat.cast_mul, Nat.cast_pow, Nat.cast_pow, Nat.cast_ofNat]
  have hlo' : (7417875925070973790601 / 2 ^ 70 : ℝ) ≤ twoPi / sineScale := by
    rw [hscale, div_le_div_iff₀ (by positivity) (by positivity)]
    have : (7417875925070973790601 * 2 ^ 250 : ℝ) ≤ twoPi := by exact_mod_cast hlo
    linarith
  have hhi' : (twoPi : ℝ) / sineScale ≤ 7417875925070973790602 / 2 ^ 70 := by
    rw [hscale, div_le_div_iff₀ (by positivity) (by positivity)]
    have : (twoPi : ℝ) ≤ 7417875925070973790602 * 2 ^ 250 := by exact_mod_cast hhi
    linarith
  rw [abs_le]
  constructor <;> norm_num at * <;> linarith

/-! ### Terms -/

/-- A number of units as a real number. -/
noncomputable def ofUnits (n : Nat) : ℝ := n / sineScale

/-- A truncated quotient is at most one unit below the quotient. -/
theorem ofUnits_div_bounds (n d : Nat) :
    ofUnits n / d - (sineScale : ℝ)⁻¹ ≤ ofUnits (n / d) ∧ ofUnits (n / d) ≤ ofUnits n / d := by
  have hM := sineScale_pos
  have hfloor : ((n / d : Nat) : ℝ) = ⌊(n : ℝ) / d⌋₊ := by rw [Nat.floor_div_eq_div]
  have hlo : (n : ℝ) / d - 1 ≤ (n / d : Nat) := hfloor ▸ (Nat.sub_one_lt_floor _).le
  have hhi : ((n / d : Nat) : ℝ) ≤ n / d := hfloor ▸ Nat.floor_le (by positivity)
  rw [ofUnits, ofUnits, div_right_comm, ← one_div, ← sub_div]
  exact ⟨div_le_div_of_nonneg_right hlo hM.le, div_le_div_of_nonneg_right hhi hM.le⟩

theorem ofUnits_mul_div_scale (m n : Nat) : ofUnits (m * n) / sineScale = ofUnits m * ofUnits n := by
  unfold ofUnits
  push_cast
  exact (div_div _ _ _).trans (mul_div_mul_comm _ _ _ _)

/-- The term number `j` of the power series of the sine, without its sign. -/
noncomputable def sineTerm (x : ℝ) (j : Nat) : ℝ := x ^ (2 * j + 1) / (2 * j + 1).factorial

theorem sineTerm_succ (x : ℝ) (j : Nat) :
    sineTerm x (j + 1) = sineTerm x j * x ^ 2 / ((2 * j + 2) * (2 * j + 3) : Nat) := by
  have hfact : ((2 * (j + 1) + 1).factorial : ℝ) = (2 * j + 1).factorial * ((2 * j + 2) * (2 * j + 3) : Nat) := by
    rw [show 2 * (j + 1) + 1 = 2 * j + 1 + 1 + 1 by ring, Nat.factorial_succ, Nat.factorial_succ]
    push_cast
    ring
  rw [sineTerm, sineTerm, hfact, show 2 * (j + 1) + 1 = 2 * j + 1 + 2 by ring, pow_add, div_mul_eq_mul_div, div_div]

/-- The angles that the series is used for: at most a quarter turn, with room for the error of the angle. -/
theorem sineTerm_bounds {x : ℝ} (h0 : 0 ≤ x) (hx : x ≤ 8 / 5) (j : Nat) :
    0 ≤ sineTerm x j ∧ sineTerm x j ≤ 2 * (1 / 2) ^ j := by
  refine ⟨by unfold sineTerm; positivity, ?_⟩
  induction j with
  | zero => simp only [sineTerm]; norm_num; linarith
  | succ j ih =>
    have hterm : 0 ≤ sineTerm x j := by unfold sineTerm; positivity
    have hsq : x ^ 2 ≤ 3 := by nlinarith
    have hc : (6 : ℝ) ≤ ((2 * j + 2) * (2 * j + 3) : Nat) := by
      have : 6 ≤ (2 * j + 2) * (2 * j + 3) := Nat.mul_le_mul (show 2 ≤ _ by omega) (show 3 ≤ _ by omega)
      exact_mod_cast this
    calc sineTerm x (j + 1) = sineTerm x j * x ^ 2 / ((2 * j + 2) * (2 * j + 3) : Nat) := sineTerm_succ x j
      _ ≤ sineTerm x j * 3 / 6 := by gcongr
      _ ≤ 2 * (1 / 2) ^ (j + 1) := by rw [pow_succ]; linarith

/-- The error of a product whose first factor is exact to within `8·u` and whose second is truncated, as the product is. -/
theorem abs_product_sub_le {T a q y u A : ℝ} (hy : y ≤ 64 / 25) (hq0 : 0 ≤ q) (ha0 : 0 ≤ a) (ha : a ≤ 2) (hu : 0 < u)
    (hq : y - u ≤ q) (hq' : q ≤ y) (hT : |T - a| ≤ 8 * u) (hA : T * q - u ≤ A) (hA' : A ≤ T * q) :
    |A - a * y| ≤ 24 * u := by
  obtain ⟨hlo, hhi⟩ := abs_le.1 hT
  rw [abs_le]
  constructor <;> nlinarith

/-- A step of the series costs two truncations and divides by at least 6, so that an error of 8 units is not passed. -/
theorem abs_ofUnits_step_sub_le {x a : ℝ} {sq term c : Nat} (hx : x ^ 2 ≤ 64 / 25) (ha0 : 0 ≤ a) (ha : a ≤ 2)
    (hc : 6 ≤ c) (hsq : x ^ 2 - (sineScale : ℝ)⁻¹ ≤ ofUnits sq) (hsq' : ofUnits sq ≤ x ^ 2)
    (hterm : |ofUnits term - a| ≤ 8 * (sineScale : ℝ)⁻¹) :
    |ofUnits (term * sq / sineScale / c) - a * x ^ 2 / c| ≤ 8 * (sineScale : ℝ)⁻¹ := by
  have hu := inv_pos.2 sineScale_pos
  have hc' : (6 : ℝ) ≤ c := by exact_mod_cast hc
  have hq0 : 0 ≤ ofUnits sq := by unfold ofUnits; positivity
  obtain ⟨hA, hA'⟩ := ofUnits_div_bounds (term * sq) sineScale
  obtain ⟨hB, hB'⟩ := ofUnits_div_bounds (term * sq / sineScale) c
  rw [ofUnits_mul_div_scale] at hA hA'
  have hprod := abs_product_sub_le hx hq0 ha0 ha hu hsq hsq' hterm hA hA'
  have hquot : |(ofUnits (term * sq / sineScale) - a * x ^ 2) / c| ≤ 4 * (sineScale : ℝ)⁻¹ := by
    rw [abs_div, Nat.abs_cast, div_le_iff₀ (by linarith)]
    nlinarith
  rw [sub_div] at hquot
  obtain ⟨hlo, hhi⟩ := abs_le.1 hquot
  rw [abs_le]
  constructor <;> linarith

/-! ### Sums -/

/-- The signed sum of `k` terms of the power series from the term number `j` on, the first with a plus sign. -/
noncomputable def sineSum (x : ℝ) : Nat → Nat → ℝ
  | 0, _ => 0
  | k + 1, j => sineTerm x j - sineSum x k (j + 1)

theorem sineSum_eq (x : ℝ) (k j : Nat) : sineSum x k j = ∑ i ∈ Finset.range k, (-1) ^ i * sineTerm x (j + i) := by
  induction k generalizing j with
  | zero => rfl
  | succ k ih =>
    rw [sineSum, ih, Finset.sum_range_succ', sub_eq_neg_add, ← Finset.sum_neg_distrib]
    congr 1
    · exact Finset.sum_congr rfl fun i _ => by rw [pow_succ, Nat.add_right_comm, ← Nat.add_assoc]; ring
    · simp

section
variable {x : ℝ} (h0 : 0 ≤ x) (hx : x ≤ 8 / 5)
include h0 hx

theorem abs_sineSeries_sub_sineSum_le {sq : Nat} (hsq : x ^ 2 - (sineScale : ℝ)⁻¹ ≤ ofUnits sq)
    (hsq' : ofUnits sq ≤ x ^ 2) (k j term : Nat) (hterm : |ofUnits term - sineTerm x j| ≤ 8 * (sineScale : ℝ)⁻¹) :
    |(sineSeries sq k j term : ℝ) / sineScale - sineSum x k j| ≤ k * (8 * (sineScale : ℝ)⁻¹) := by
  induction k generalizing j term with
  | zero => simp [sineSeries, sineSum]
  | succ k ih =>
    obtain ⟨ha0, ha⟩ := sineTerm_bounds h0 hx j
    have hhalves : (1 / 2 : ℝ) ^ j ≤ 1 := pow_le_one₀ (by norm_num) (by norm_num)
    have hc : 6 ≤ (2 * j + 2) * (2 * j + 3) := Nat.mul_le_mul (show 2 ≤ _ by omega) (show 3 ≤ _ by omega)
    have hnext := abs_ofUnits_step_sub_le (by nlinarith) ha0 (by linarith) hc hsq hsq' hterm
    rw [← sineTerm_succ] at hnext
    have hrest := ih _ _ hnext
    rw [sineSeries_succ, sineSum]
    push_cast
    rw [sub_div]
    unfold ofUnits at hterm
    rw [abs_le] at *
    constructor <;> linarith

/-- The remainder of a power series whose terms at least halve. -/
theorem abs_sineSum_sub_sin_le (k : Nat) : |sineSum x k 0 - Real.sin x| ≤ 4 * (1 / 2) ^ k := by
  have hsum : HasSum (fun i => (-1) ^ i * sineTerm x i) (Real.sin x) := by
    simpa only [sineTerm, mul_div_assoc] using Real.hasSum_sin x
  have hbound (i : Nat) : ‖(-1) ^ i * sineTerm x i‖ ≤ 2 * (1 / 2) ^ i := by
    obtain ⟨hpos, hle⟩ := sineTerm_bounds h0 hx i
    rwa [norm_mul, norm_pow, norm_neg, norm_one, one_pow, one_mul, Real.norm_of_nonneg hpos]
  have h := norm_sub_le_of_geometric_bound_of_hasSum (by norm_num) hbound hsum k
  rw [sineSum_eq]
  simp only [Nat.zero_add]
  refine h.trans (le_of_eq ?_)
  ring

end

/-! ### The sine of a quarter turn at most -/

/-- The angle of `y` units of 2^-149 of a turn. -/
noncomputable def turnAngle (y : Nat) : ℝ := 2 * Real.pi * ((y : ℝ) / 2 ^ 149)

/-- A negative sum of the series is replaced by 0, which is nearer to a sine of at least 0. -/
theorem abs_ofUnits_toNat_sub_le (z : Int) {v : ℝ} (hv : 0 ≤ v) : |ofUnits z.toNat - v| ≤ |(z : ℝ) / sineScale - v| := by
  rcases le_total 0 z with hz | hz
  · have hcast : ((z.toNat : Nat) : ℝ) = z := by exact_mod_cast Int.toNat_of_nonneg hz
    rw [ofUnits, hcast]
  · have hneg : (z : ℝ) / sineScale ≤ 0 := div_nonpos_of_nonpos_of_nonneg (by exact_mod_cast hz) sineScale_pos.le
    rw [Int.toNat_of_nonpos hz, ofUnits, Nat.cast_zero, zero_div, abs_sub_comm, abs_sub_comm _ v, abs_of_nonneg (by linarith),
      abs_of_nonneg (by linarith)]
    linarith

section
variable {y : Nat} (hy : y ≤ 2 ^ 147)
include hy

theorem quarter_turn : 0 ≤ (y : ℝ) / 2 ^ 149 ∧ (y : ℝ) / 2 ^ 149 ≤ 1 / 4 := by
  have h : (y : ℝ) ≤ 2 ^ 147 := by exact_mod_cast hy
  refine ⟨by positivity, ?_⟩
  rw [div_le_iff₀ (by positivity)]
  norm_num at h ⊢
  exact h

theorem turnAngle_bounds : 0 ≤ turnAngle y ∧ turnAngle y ≤ Real.pi / 2 := by
  have hpi := Real.pi_pos
  obtain ⟨h0, h1⟩ := quarter_turn hy
  exact ⟨by unfold turnAngle; positivity, by unfold turnAngle; nlinarith⟩

/-- The angle of the model is off by a quarter of the error of 2π and one truncation. -/
theorem abs_ofUnits_angle_sub_le : |ofUnits (twoPi * y / 2 ^ 149) - turnAngle y| ≤ 1 / 2 ^ 50 := by
  obtain ⟨h0, h1⟩ := quarter_turn hy
  have hprod : ofUnits (twoPi * y) / (2 ^ 149 : Nat) = twoPi / sineScale * ((y : ℝ) / 2 ^ 149) := by
    unfold ofUnits
    push_cast
    ring
  obtain ⟨hlo, hhi⟩ := ofUnits_div_bounds (twoPi * y) (2 ^ 149)
  rw [hprod] at hlo hhi
  obtain ⟨hpi, hpi'⟩ := abs_le.1 abs_twoPi_sub_le
  have hu := inv_sineScale_le
  rw [turnAngle, abs_le]
  constructor <;> norm_num at * <;> nlinarith

/-- The series at the angle of the model, against the sine at the exact angle. -/
theorem abs_sineTurn_sub_le : |ofUnits (sineTurn y) - Real.sin (turnAngle y)| ≤ 1 / 2 ^ 30 := by
  obtain ⟨hX0, hX1⟩ := turnAngle_bounds hy
  have hangle := abs_ofUnits_angle_sub_le hy
  rw [sineTurn_eq]
  generalize twoPi * y / 2 ^ 149 = angle at *
  obtain ⟨hsq, hsq'⟩ := ofUnits_div_bounds (angle ^ 2) sineScale
  rw [sq angle, ofUnits_mul_div_scale, ← sq, ← sq] at hsq hsq'
  have hx0 : 0 ≤ ofUnits angle := by unfold ofUnits; positivity
  have hx1 : ofUnits angle ≤ 8 / 5 := by
    have := Real.pi_lt_d2
    have := (abs_le.1 hangle).2
    norm_num at *
    linarith
  have hu := inv_sineScale_le
  have hfirst : |ofUnits angle - sineTerm (ofUnits angle) 0| ≤ 8 * (sineScale : ℝ)⁻¹ := by
    simp [sineTerm]
  have hseries := abs_sineSeries_sub_sineSum_le hx0 hx1 hsq hsq' 40 0 angle hfirst
  have htail := abs_sineSum_sub_sin_le hx0 hx1 40
  have hsin := Real.abs_sin_sub_sin_le (ofUnits angle) (turnAngle y)
  have hpos : 0 ≤ Real.sin (turnAngle y) := Real.sin_nonneg_of_nonneg_of_le_pi hX0 (by linarith [Real.pi_pos])
  refine (abs_ofUnits_toNat_sub_le _ hpos).trans ?_
  generalize (sineSeries _ 40 0 angle : ℝ) / sineScale = v at *
  calc |v - Real.sin (turnAngle y)|
      ≤ |v - sineSum (ofUnits angle) 40 0| + |sineSum (ofUnits angle) 40 0 - Real.sin (turnAngle y)| := abs_sub_le _ _ _
    _ ≤ |v - sineSum (ofUnits angle) 40 0| + (|sineSum (ofUnits angle) 40 0 - Real.sin (ofUnits angle)| +
          |Real.sin (ofUnits angle) - Real.sin (turnAngle y)|) := by gcongr; exact abs_sub_le _ _ _
    _ ≤ 40 * (8 * (1 / 2 ^ 160)) + (4 * (1 / 2) ^ 40 + 1 / 2 ^ 50) := by
        push_cast at hseries
        gcongr
        · exact hseries.trans (by gcongr)
        · exact hsin.trans hangle
    _ ≤ 1 / 2 ^ 30 := by norm_num

end

/-! ### Folding to a quarter turn -/

theorem turnAngle_add_quarters (q p : Nat) : turnAngle (q * 2 ^ 147 + p) = q * (Real.pi / 2) + turnAngle p := by
  unfold turnAngle
  push_cast
  ring

theorem turnAngle_quarter_sub {p : Nat} (hp : p ≤ 2 ^ 147) : turnAngle (2 ^ 147 - p) = Real.pi / 2 - turnAngle p := by
  unfold turnAngle
  rw [Nat.cast_sub hp]
  push_cast
  ring

/-- The sine of a turn is that of the folded angle, with a minus sign in the second half of the turn. -/
theorem sin_turnAngle {m : Nat} (hm : m < 2 ^ 149) :
    Real.sin (turnAngle m) =
      if 2 ^ 148 ≤ m then -Real.sin (turnAngle (sineFold m)) else Real.sin (turnAngle (sineFold m)) := by
  obtain ⟨q, p, hp, rfl⟩ : ∃ q p, p < 2 ^ 147 ∧ m = q * 2 ^ 147 + p := ⟨m / 2 ^ 147, m % 2 ^ 147, by omega, by omega⟩
  have hdiv : (q * 2 ^ 147 + p) / 2 ^ 147 = q := by omega
  have hmod : (q * 2 ^ 147 + p) % 2 ^ 147 = p := by omega
  have hquarter := turnAngle_quarter_sub hp.le
  rw [turnAngle_add_quarters, sineFold, hdiv, hmod]
  obtain rfl | rfl | rfl | rfl : q = 0 ∨ q = 1 ∨ q = 2 ∨ q = 3 := by omega
  · rw [if_pos rfl, if_neg (by omega), Nat.cast_zero, zero_mul, zero_add]
  · rw [if_neg (by omega), if_neg (by decide), hquarter, Real.sin_pi_div_two_sub, Nat.cast_one, one_mul, add_comm,
      Real.sin_add_pi_div_two]
  · rw [if_pos rfl, if_pos (by omega), Nat.cast_ofNat, mul_div_cancel₀ _ (by norm_num), add_comm, Real.sin_add_pi]
  · have hangle : ((3 : Nat) : ℝ) * (Real.pi / 2) + turnAngle p = turnAngle p + Real.pi / 2 + Real.pi := by
      push_cast
      ring
    rw [if_pos (by omega), if_neg (by decide), hquarter, Real.sin_pi_div_two_sub, hangle, Real.sin_add_pi,
      Real.sin_add_pi_div_two]

theorem sineFold_le (m : Nat) : sineFold m ≤ 2 ^ 147 := by
  unfold sineFold
  split <;> omega

/-! ### The one rounding -/

/-- The nearest integer is off by half a unit at most. -/
theorem rne_near (n d : Nat) (hd : 0 < d) : 2 * n ≤ 2 * (rne n d * d) + d ∧ 2 * (rne n d * d) ≤ 2 * n + d := by
  have hdiv := Nat.div_add_mod n d
  have hmod := Nat.mod_lt n hd
  have hcomm : n / d * d = d * (n / d) := Nat.mul_comm _ _
  unfold rne
  split
  · rw [Nat.add_mul]; omega
  · omega

/-- A quotient of at most `24 + e` bits is rounded by half a unit in the last place of that binade at most. -/
theorem roundMag_near {n d e : Nat} (hd : 0 < d) (he : e ≤ 252) (hn : n < 2 ^ (24 + e) * d) :
    2 * n ≤ 2 * (magUnits (roundMag n d) * d) + d * 2 ^ e ∧ 2 * (magUnits (roundMag n d) * d) ≤ 2 * n + d * 2 ^ e := by
  have hb : binade n d ≤ e := by
    by_contra hlt
    have hlow := binade_le_div (n := n) (d := d) (by omega)
    have hhigh : n / d < 2 ^ (24 + e) := (Nat.div_lt_iff_lt_mul hd).2 hn
    exact absurd (hlow.trans_lt hhigh) (not_lt.2 (Nat.pow_le_pow_right (by norm_num) (by omega)))
  have hround := rne_binade_le (n := n) hd
  have hvalue : magUnits (roundMag n d) * d = rne n (d * 2 ^ binade n d) * (d * 2 ^ binade n d) := by
    rw [roundMag, min_eq_left (by omega), magUnits_significand hround (le_rne_binade hd), Nat.mul_assoc,
      Nat.mul_comm d]
  have hnear := rne_near n (d * 2 ^ binade n d) (Nat.mul_pos hd (Nat.two_pow_pos _))
  have hunit : d * 2 ^ binade n d ≤ d * 2 ^ e := Nat.mul_le_mul_left d (Nat.pow_le_pow_right (by norm_num) hb)
  rw [hvalue]
  omega

/-- A number of units below 1 is rounded by 2^-25 at most. -/
theorem abs_rounded_sub_le {n : Nat} (hn : n < 2 ^ 149 * 2 ^ 171) :
    |(magUnits (roundMag n (2 ^ 171)) : ℝ) / 2 ^ 149 - ofUnits n| ≤ 1 / 2 ^ 25 := by
  obtain ⟨hlo, hhi⟩ := roundMag_near (n := n) (d := 2 ^ 171) (e := 125) (by positivity) (by norm_num) hn
  generalize magUnits (roundMag n (2 ^ 171)) = g at *
  have hlo' : (2 * n : ℝ) ≤ 2 * (g * 2 ^ 171) + 2 ^ 171 * 2 ^ 125 := by exact_mod_cast hlo
  have hhi' : (2 * (g * 2 ^ 171) : ℝ) ≤ 2 * n + 2 ^ 171 * 2 ^ 125 := by exact_mod_cast hhi
  have hscale : (sineScale : ℝ) = 2 ^ 171 * 2 ^ 149 := by
    rw [sineScale_split (i := 171) (j := 149) rfl, Nat.cast_mul, Nat.cast_pow, Nat.cast_pow, Nat.cast_ofNat]
  have hvalue : (g : ℝ) / 2 ^ 149 - ofUnits n = (g * 2 ^ 171 - n) / (2 ^ 171 * 2 ^ 149) := by
    rw [ofUnits, hscale]
    field_simp
  rw [hvalue, abs_le, le_div_iff₀ (by positivity), div_le_iff₀ (by positivity)]
  constructor <;> norm_num at * <;> linarith

theorem magUnits_one : magUnits 0x3F800000 = 2 ^ 149 := by decide +kernel

/-- The magnitude that the reference gives for `n` units of 2^-320: rounded, and capped at that of ONE. -/
def sineMag (n : Nat) : Nat := min (roundMag n (2 ^ 171)) 0x3F800000

/-- The cap brings the magnitude no farther from a value that is at most 1. -/
theorem abs_sineMag_sub_le {n : Nat} {v : ℝ} (hv : v ≤ 1) :
    |(magUnits (sineMag n) : ℝ) / 2 ^ 149 - v| ≤ 1 / 2 ^ 25 + |ofUnits n - v| := by
  have hone : isFinite ONE = true := by decide
  have hunits : fUnits ONE = 2 ^ 149 := magUnits_one
  rcases lt_or_ge n (2 ^ 149 * 2 ^ 171) with hlt | hge
  · have hle : roundMag n (2 ^ 171) ≤ 0x3F800000 :=
      roundMag_le (x := ONE) (Nat.two_pow_pos 171) hone (by rw [hunits]; exact hlt.le)
    rw [sineMag, min_eq_left hle]
    exact (abs_sub_le _ (ofUnits n) _).trans (add_le_add_left (abs_rounded_sub_le hlt) _)
  · have hle : 0x3F800000 ≤ roundMag n (2 ^ 171) :=
      le_roundMag (x := ONE) (Nat.two_pow_pos 171) hone (by rw [hunits]; exact hge)
    have hcap : 1 ≤ ofUnits n := by
      rw [ofUnits, one_le_div₀ sineScale_pos, sineScale_split (i := 149) (j := 171) rfl]
      exact_mod_cast hge
    rw [sineMag, min_eq_right hle, magUnits_one, Nat.cast_pow, Nat.cast_ofNat, div_self (by positivity),
      abs_of_nonneg (by linarith), abs_of_nonneg (by linarith)]
    have : (0 : ℝ) ≤ 1 / 2 ^ 25 := by positivity
    linarith

/-! ### The reference -/

/-- The magnitude that the reference gives for `m` units of 2^-149 of a turn. -/
def turnMag (m : Nat) : Nat := sineMag (sineTurn (sineFold m))

theorem abs_turnMag_sub_le (m : Nat) :
    |(magUnits (turnMag m) : ℝ) / 2 ^ 149 - Real.sin (turnAngle (sineFold m))| ≤ 1 / 2 ^ 24 := by
  have hround := abs_sineMag_sub_le (n := sineTurn (sineFold m)) (Real.sin_le_one (turnAngle (sineFold m)))
  have hseries := abs_sineTurn_sub_le (sineFold_le m)
  have hsum : (1 / 2 ^ 25 + 1 / 2 ^ 30 : ℝ) ≤ 1 / 2 ^ 24 := by norm_num
  unfold turnMag
  linarith

/-- The value of the reference within one turn, its zeros included. -/
theorem fInt_sineRef {t : F32} (hfin : isFinite t = true) (hsign : fSign t = false) (hlt : fUnits t < 2 ^ 149) :
    fInt (sineRef t) =
      if 2 ^ 148 ≤ fUnits t then -(magUnits (turnMag (fUnits t)) : Int) else magUnits (turnMag (fUnits t)) := by
  have hmag : turnMag (fUnits t) < 2 ^ 31 := (min_le_right _ _).trans_lt (by norm_num)
  have href : sineRef t =
      if turnMag (fUnits t) = 0 then ZERO else packSign (decide (2 ^ 148 ≤ fUnits t)) (turnMag (fUnits t)) := by
    rw [sineRef, if_pos hfin]
    dsimp only
    rw [Nat.mod_eq_of_lt hlt, hsign, Bool.bne_false]
    rfl
  rw [href]
  split
  · next h0 =>
    have hzero : fInt ZERO = 0 := by decide
    have hunits : magUnits 0 = 0 := by decide
    rw [h0, hzero, hunits, Nat.cast_zero, neg_zero, ite_self]
  · rw [fInt_packSign _ hmag]
    simp only [decide_eq_true_eq]

theorem fUnits_lt_of_toNat_le {t : F32} (ht : t.toNat ≤ 0x3F7FFFFF) : fUnits t < 2 ^ 149 := by
  have hlast : isFinite 0x3F7FFFFF#32 = true := by decide
  have hmag : fMag t ≤ fMag 0x3F7FFFFF#32 := (Nat.mod_le _ _).trans ht
  have hunits : fUnits 0x3F7FFFFF#32 < 2 ^ 149 := by decide +kernel
  exact ((fUnits_le_iff (isFinite_of_toNat_le ht) hlast).2 hmag).trans_lt hunits

/-- Settles O36: on the folded angle the magnitude of the reference is the sine to within the series and the rounding, and
folding changes the sign of both alike. -/
theorem sineReferenceIsSine : Obligations.SineReferenceIsSine := by
  intro t ht
  have hlt := fUnits_lt_of_toNat_le ht
  have hsign : fSign t = false := decide_eq_false (by omega)
  have hmag := abs_turnMag_sub_le (fUnits t)
  show |(fInt (sineRef t) : ℝ) / 2 ^ 149 - Real.sin (turnAngle (fUnits t))| ≤ 1 / 2 ^ 24
  rw [fInt_sineRef (isFinite_of_toNat_le ht) hsign hlt, sin_turnAngle hlt]
  split
  · rw [Int.cast_neg, Int.cast_natCast, neg_div, sub_neg_eq_add, neg_add_eq_sub, abs_sub_comm]
    exact hmag
  · rw [Int.cast_natCast]
    exact hmag

end Sys2Proof.Machine
end

section
/-! PROOFS. The period estimator (O39): a cap that is met stays met under least common multiples, so the cap of each step
and the cap of the whole agree. -/

namespace Sys2Proof.Machine

/-! ### The period of a slot (R141) -/

theorem takesPart_of_kind_le {o : OscSlot} (hk : o.kind.toNat ≤ 5) : takesPart o = decide (o.kind ≠ 0#3) := by
  have h0 : o.kind = 0#3 ↔ o.kind.toNat = 0 := BitVec.toNat_inj.symm
  rw [takesPart, decide_eq_true hk, Bool.and_true, decide_eq_decide, ne_eq, h0]
  omega

/-- The ceiling of a value above 0 is the least natural number that is at least the value. -/
theorem fceil_toNat_isLeast {q : F32} (hq : 0 < fInt q) :
    IsLeast {n : Nat | fInt q ≤ (n : Int) * 2 ^ 149} (fceil q).toNat := by
  obtain ⟨hle, hlt⟩ := fceil_spec q
  have hcast : ((fceil q).toNat : Int) = fceil q := Int.toNat_of_nonneg (by omega)
  refine ⟨hcast.symm ▸ hle, fun n (hn : fInt q ≤ n * 2 ^ 149) => ?_⟩
  omega

theorem slotPeriod_of_inf {s : State} {o : OscSlot} (h : fdiv (sampleRate s) o.freq = INF) :
    slotPeriod s o = s.srate.toNat := if_pos h

theorem slotPeriod_isLeast {s : State} {o : OscSlot} (hne : fdiv (sampleRate s) o.freq ≠ INF)
    (hpos : 0 < fInt (fdiv (sampleRate s) o.freq)) :
    IsLeast {n : Nat | fInt (fdiv (sampleRate s) o.freq) ≤ (n : Int) * 2 ^ 149} (slotPeriod s o) := by
  rw [slotPeriod, if_neg hne]
  exact fceil_toNat_isLeast hpos

/-- With the rate and the frequency in the oscillator's domain, the quotient is infinite or at least one step above 0. -/
theorem one_le_slotPeriod {s : State} {o : OscSlot} (hrate : 1 ≤ s.srate.toNat)
    (hwf : OscArgs.wf ⟨ZERO, sampleRate s, o.freq⟩ = true) : 1 ≤ slotPeriod s o := by
  by_cases hinf : fdiv (sampleRate s) o.freq = INF
  · rwa [slotPeriod_of_inf hinf]
  · have hpos : 0 < fInt (fdiv (sampleRate s) o.freq) := ((period_cases hwf).resolve_left hinf).2
    have hle : fInt (fdiv (sampleRate s) o.freq) ≤ (slotPeriod s o : Int) * 2 ^ 149 := (slotPeriod_isLeast hinf hpos).1
    omega

/-! ### The capped fold (R142) -/

/-- Capping the operands does not change a capped least common multiple: an operand above the cap brings it to the cap. -/
theorem min_lcm_min {p c cap : Nat} (hp : 1 ≤ p) (hc : 1 ≤ c) (hcap : 1 ≤ cap) :
    min (Nat.lcm (min p cap) (min c cap)) cap = min (Nat.lcm p c) cap := by
  have le_lcm {a b : Nat} (ha : 1 ≤ a) (hb : 1 ≤ b) : a ≤ Nat.lcm a b ∧ b ≤ Nat.lcm a b :=
    ⟨Nat.le_lcm_left a hb, Nat.le_lcm_right b ha⟩
  have hfull := le_lcm hp hc
  have hcapped := le_lcm (le_min hp hcap) (le_min hc hcap)
  by_cases hbelow : p ≤ cap ∧ c ≤ cap
  · rw [min_eq_left hbelow.1, min_eq_left hbelow.2]
  · rw [min_eq_right (by omega), min_eq_right (by omega)]

theorem foldl_periodStep_eq {s : State} (hrate : 1 ≤ s.srate.toNat) (slots : List OscSlot) {p : Nat} (hp : 1 ≤ p)
    (hslots : ∀ o ∈ slots, takesPart o = true → 1 ≤ slotPeriod s o) :
    slots.foldl (periodStep s) (min p s.srate.toNat) =
      min (((slots.filter takesPart).map (slotPeriod s)).foldl Nat.lcm p) s.srate.toNat := by
  induction slots generalizing p with
  | nil => rfl
  | cons o slots ih =>
    obtain ⟨ho, hrest⟩ := List.forall_mem_cons.1 hslots
    rw [List.foldl_cons, periodStep]
    by_cases hpart : takesPart o = true
    · rw [if_pos hpart, min_lcm_min hp (ho hpart) hrate, ih (Nat.lcm_pos hp (ho hpart)) hrest,
        List.filter_cons_of_pos hpart, List.map_cons, List.foldl_cons]
    · rw [if_neg hpart, ih hp hrest, List.filter_cons_of_neg hpart]

/-- Every step of the capped fold stays at least 1. -/
theorem one_le_combinedPeriod {s : State} (hrate : 1 ≤ s.srate.toNat)
    (hslots : ∀ o ∈ s.osc, takesPart o = true → 1 ≤ slotPeriod s o) : 1 ≤ combinedPeriod s := by
  refine List.foldlRecOn (motive := (1 ≤ ·)) s.osc _ le_rfl fun p hp o ho => ?_
  rw [periodStep]
  split
  · next hpart => exact le_min (Nat.lcm_pos hp (le_min (hslots o ho hpart) hrate)) hrate
  · exact hp

/-- Settles O39: the checks put every slot that takes part in the oscillator's domain, so its period is at least 1, and the
capped fold is the cap of the full one. -/
theorem combinedPeriodIsCappedLcm : Obligations.CombinedPeriodIsCappedLcm := by
  intro s hv hmode
  obtain ⟨hrate, -⟩ := srate_of_validate hv
  have hcall {o : OscSlot} (ho : o ∈ s.osc) :
      o.kind.toNat ≤ 5 ∧ (o.kind ≠ 0#3 → OscArgs.wf ⟨ZERO, sampleRate s, o.freq⟩ = true) :=
    wf_slot_call hv (by simp [readsSlots, hmode]) ho (by decide)
  have hpart : ∀ o ∈ s.osc, takesPart o = decide (o.kind ≠ 0#3) := fun o ho => takesPart_of_kind_le (hcall ho).1
  have hperiod : ∀ o ∈ s.osc, takesPart o = true → 1 ≤ slotPeriod s o := fun o ho h =>
    one_le_slotPeriod hrate ((hcall ho).2 (of_decide_eq_true ((hpart o ho).symm.trans h)))
  refine ⟨?_, one_le_combinedPeriod hrate hperiod, combinedPeriod_le hrate, fun o ho hkind => ?_⟩
  · rw [← List.filter_congr hpart, ← foldl_periodStep_eq hrate s.osc le_rfl hperiod, min_eq_left hrate, combinedPeriod]
  · refine ⟨slotPeriod_of_inf, fun hne => ?_⟩
    obtain ⟨hfin, hpos⟩ := (period_cases ((hcall ho).2 hkind)).resolve_left hne
    obtain ⟨hle, hleast⟩ := slotPeriod_isLeast hne hpos
    exact ⟨hfin, hpos, hle, fun n hn => hleast hn⟩

end Sys2Proof.Machine
end

section
/-! PROOFS. The frame samples of the three modes with everything they write (O22): each is the model's stage with the test that
chooses its branch put into the words of the rule. -/

namespace Sys2Proof.Machine

/-- The degeneracy test as R162 words it. -/
theorem fmDegenerate_iff (s : State) :
    fmDegenerate s = true ↔
      (carrier s).kind ≠ 0#3 ∧ (fgt (fmFrequency s) ZERO = false ∨ feq (fmFrequency s) INF = true) := by
  simp [fmDegenerate]

/-- A degeneracy is counted and recorded; without one nothing changes (R162). -/
theorem noteDegeneracy_eq (s : State) :
    noteDegeneracy s =
      { s with
        degcnt := if fmDegenerate s then countUp s.degcnt else s.degcnt
        status := { s.status with degen := if fmDegenerate s then true else s.status.degen } } := by
  unfold noteDegeneracy
  split <;> rfl

/-- NVOICE is 0 exactly when no note is active (R42). -/
theorem nvoice_eq_zero_iff (s : State) : nvoice s = 0 ↔ ∀ n, (voiceAt s n).active = false := by
  have hnotes : (∀ n, (voiceAt s n).active = false) ↔ ∀ k, k < 128 → (voiceAt s (BitVec.ofNat 7 k)).active = false :=
    ⟨fun h k _ => h _, fun h n => by simpa using h n.toNat n.isLt⟩
  simp [nvoice_eq, hnotes]

/-- A voice set that is empty after the drain (R183). -/
theorem polyStage_of_silent {s : State} (h : nvoice (drain s) = 0) :
    polyStage s =
      { s with
        fifo := [], voice := (drain s).voice, loudsum := ZERO, clk := ZERO, mixout := ZERO, dp := ZERO } := by
  rw [polyStage, voiceStage, if_pos h]
  exact congrArg (fun u : State => mixedSample ZERO { u with loudsum := ZERO, clk := ZERO }) (drain_frame s)

/-- A voice set that is not empty (R181, R182). -/
theorem polyStage_of_voices {s : State} (h : nvoice (drain s) ≠ 0) :
    polyStage s =
      { s with
        fifo := [], voice := (drain s).voice, loudsum := loudnessSum (drain s), mixout := polySample (drain s)
        dp := polySample (drain s) } := by
  rw [polyStage, voiceStage, if_neg h]
  exact congrArg (fun u : State => mixedSample (polySample (drain s)) { u with loudsum := loudnessSum (drain s) })
    (drain_frame s)

/-- The sum of the voices that the drain leaves reads the configuration and the clock of the state before it. -/
theorem voiceValue_drain (s : State) (n : BitVec 7) : voiceValue (drain s) n = voiceValue s n := by
  rw [drain_frame]
  rfl

/-- Settles O22: the MIX sample is the model's own, the FM sample splits on the degeneracy test, the POLY sample on the voices
that the drain leaves. -/
theorem modeSamples : Obligations.ModeSamples := by
  intro s m acc c f degenerate n x
  refine ⟨rfl, ?_, fun hsilent => ?_, fun ⟨k, hk⟩ => ?_⟩
  · show Host.Outcome.next (mixedSample (fmSample s) (noteDegeneracy (clearFifo s))) = _
    rw [noteDegeneracy_eq, fmSample, fmClamped]
    simp only [fmDegenerate_iff]
    rfl
  · exact congrArg Host.Outcome.next (polyStage_of_silent ((nvoice_eq_zero_iff (drain s)).2 hsilent))
  · have hne : nvoice (drain s) ≠ 0 := fun h0 => by simp [(nvoice_eq_zero_iff (drain s)).1 h0 k] at hk
    have hsum : weightedSum (drain s) = (activeNotes (drain s)).foldl
        (fun acc n => fadd acc (fmul (voiceAt (drain s) n).loud (voiceValue s n))) ZERO := by
      simp only [weightedSum, voiceValue_drain]
    show Host.Outcome.next (polyStage s) = _
    rw [polyStage_of_voices hne, polySample, hsum]
    rfl

end Sys2Proof.Machine
end

section
/-! PROOFS. MIX mode: the two peak strategies and the sum they search (O40), the first maximum (O41), and the bounds that the
number of slots that take part puts on the peak and on the sample (O42). -/

namespace Sys2Proof.Machine

/-! ### The strategies (R150 to R152) -/

/-- The KIND codes of the slots that take part (R141). -/
theorem takesPart_eq_mem (o : OscSlot) : takesPart o = decide (o.kind ∈ [1#3, 2#3, 3#3, 4#3, 5#3]) := by
  have codes : ∀ k : BitVec 3,
      (decide (1 ≤ k.toNat) && decide (k.toNat ≤ 5)) = decide (k ∈ [1#3, 2#3, 3#3, 4#3, 5#3]) := by decide
  exact codes o.kind

/-- Settles O40: the FAST count is over the slots that take part; the search and its sum are the model's own folds. -/
theorem peakStrategies : Obligations.PeakStrategies := by
  intro s
  have hcount : s.osc.countP takesPart = (s.osc.filter fun o => decide (o.kind ∈ [1#3, 2#3, 3#3, 4#3, 5#3])).length := by
    rw [List.countP_eq_length_filter, List.filter_congr fun o _ => takesPart_eq_mem o]
  refine ⟨?_, rfl, fun _ => rfl⟩
  rw [← hcount]
  rfl

/-! ### The first maximum (R151) -/

theorem fgt_iff_fKey {a b : F32} : fgt a b = true ↔ isNaN a = false ∧ isNaN b = false ∧ fKey b < fKey a := by
  simp only [fgt, flt, Bool.and_eq_true, Bool.not_eq_true', decide_eq_true_eq]
  tauto

theorem isNaN_fabs (x : F32) : isNaN (fabs x) = isNaN x := by simp only [isNaN, fMag_fabs]

/-- What `pk` is after the positions below `n`: no NaN, above or equal to every visited magnitude, and the first to be so. -/
structure FirstMaximum (s : State) (n : Nat) (pk : F32) : Prop where
  number : isNaN pk = false
  highest : ∀ k, k < n → fgt (fabs (mixSum s (float k))) pk = false
  first : pk = ZERO ∨
    ∃ k, k < n ∧ pk = fabs (mixSum s (float k)) ∧
      ∀ j, j < k → isNaN (mixSum s (float j)) = true ∨ fgt pk (fabs (mixSum s (float j))) = true

/-- A magnitude above the maximum so far is above every earlier number, and becomes the maximum. -/
theorem firstMaximum_of_fgt {s : State} {n : Nat} {pk : F32} (h : FirstMaximum s n pk)
    (hgt : fgt (fabs (mixSum s (float n))) pk = true) : FirstMaximum s (n + 1) (fabs (mixSum s (float n))) := by
  obtain ⟨hn, hpk, hlt⟩ := fgt_iff_fKey.1 hgt
  have below {j : Nat} (hj : j < n) (hnum : isNaN (fabs (mixSum s (float j))) = false) :
      fKey (fabs (mixSum s (float j))) < fKey (fabs (mixSum s (float n))) := by
    have hle : ¬ fKey pk < fKey (fabs (mixSum s (float j))) := fun hc =>
      Bool.false_ne_true ((h.highest j hj).symm.trans (fgt_iff_fKey.2 ⟨hnum, hpk, hc⟩))
    omega
  refine ⟨hn, fun k hk => Bool.eq_false_iff.2 fun hc => ?_, .inr ⟨n, n.lt_succ_self, rfl, fun j hj => ?_⟩⟩
  · obtain ⟨hk', -, habove⟩ := fgt_iff_fKey.1 hc
    obtain hkn | rfl := Nat.lt_succ_iff_lt_or_eq.1 hk
    · exact absurd (below hkn hk') habove.not_gt
    · exact lt_irrefl _ habove
  · cases hnum : isNaN (mixSum s (float j)) with
    | true => exact .inl rfl
    | false =>
      have hnum' := (isNaN_fabs _).trans hnum
      exact .inr (fgt_iff_fKey.2 ⟨hn, hnum', below hj hnum'⟩)

/-- A magnitude that is not above the maximum so far leaves it. -/
theorem firstMaximum_of_not_fgt {s : State} {n : Nat} {pk : F32} (h : FirstMaximum s n pk)
    (hle : fgt (fabs (mixSum s (float n))) pk = false) : FirstMaximum s (n + 1) pk := by
  refine ⟨h.number, fun k hk => ?_, h.first.imp_right ?_⟩
  · obtain hkn | rfl := Nat.lt_succ_iff_lt_or_eq.1 hk
    · exact h.highest k hkn
    · exact hle
  · rintro ⟨k, hk, hrest⟩
    exact ⟨k, hk.trans n.lt_succ_self, hrest⟩

theorem firstMaximum_search (s : State) (n : Nat) : FirstMaximum s n ((List.range n).foldl (peakStep s) ZERO) := by
  induction n with
  | zero => exact ⟨(by decide : isNaN ZERO = false), fun k hk => absurd hk k.not_lt_zero, .inl rfl⟩
  | succ n ih =>
    rw [List.range_succ, List.foldl_append, List.foldl_cons, List.foldl_nil, peakStep]
    split
    · next hgt => exact firstMaximum_of_fgt ih hgt
    · next hle => exact firstMaximum_of_not_fgt ih (Bool.eq_false_iff.2 hle)

/-- Settles O41: the search visits the positions 0 to CPERIOD - 1. -/
theorem exactPeakIsFirstMaximum : Obligations.ExactPeakIsFirstMaximum := by
  intro s
  obtain ⟨-, highest, first⟩ := firstMaximum_search s s.cperiod.toNat
  exact ⟨_, rfl, highest, first⟩

/-! ### Sums of values in [-1, 1] -/

theorem fMag_float_mono {m n : Nat} (h : m ≤ n) : fMag (float m) ≤ fMag (float n) := by
  rw [fMag_float, fMag_float]
  exact roundMag_mono Nat.one_pos Nat.one_pos (by omega)

/-- A magnitude that does not pass an integer is at most that integer. -/
theorem fUnits_le_of_fMag_le_float {x : F32} {n : Nat} (hn : n ≤ 2 ^ 24) (h : fMag x ≤ fMag (float n)) :
    isFinite x = true ∧ fUnits x ≤ n * 2 ^ 149 := by
  have hf := isFinite_float hn
  have hx := isFinite_of_fMag_le hf h
  exact ⟨hx, fUnits_float hn ▸ (fUnits_le_iff hx hf).2 h⟩

/-- The integers up to 2^24 are represented, so the bounds of two magnitudes add up through the rounding. -/
theorem fMag_fadd_le_float {a b : F32} {m n : Nat} (hmn : m + n ≤ 2 ^ 24) (ha : fMag a ≤ fMag (float m))
    (hb : fMag b ≤ fMag (float n)) : fMag (fadd a b) ≤ fMag (float (m + n)) := by
  obtain ⟨hfa, hua⟩ := fUnits_le_of_fMag_le_float (by omega) ha
  obtain ⟨hfb, hub⟩ := fUnits_le_of_fMag_le_float (by omega) hb
  refine fMag_fadd_le hfa hfb (isFinite_float hmn) ?_
  calc (fInt a + fInt b).natAbs
      ≤ fUnits a + fUnits b := by simpa only [natAbs_fInt] using Int.natAbs_add_le (fInt a) (fInt b)
    _ ≤ fUnits (float (m + n)) := by rw [fUnits_float hmn]; omega

/-- A sum whose terms are in [-1, 1], and zero but for those that `p` counts, does not pass their number. -/
theorem fMag_foldl_fadd_le_float {α : Type} (f : α → F32) (p : α → Bool) (l : List α)
    (hl : ∀ x ∈ l, fMag (f x) ≤ fMag (float (if p x then 1 else 0))) {acc : F32} {m : Nat}
    (hm : m + l.countP p ≤ 2 ^ 24) (hacc : fMag acc ≤ fMag (float m)) :
    fMag (l.foldl (fun acc x => fadd acc (f x)) acc) ≤ fMag (float (m + l.countP p)) := by
  induction l generalizing acc m with
  | nil => exact hacc
  | cons x l ih =>
    have hcount : m + (x :: l).countP p = m + (if p x then 1 else 0) + l.countP p := by
      rw [List.countP_cons]; omega
    rw [hcount] at hm ⊢
    exact ih (fun y hy => hl y (List.mem_cons_of_mem x hy)) hm
      (fMag_fadd_le_float (by omega) hacc (hl x List.mem_cons_self))

/-! ### The mix sum of a legal configuration (R154, R155) -/

section
variable {s : State} (hinv : s.Inv) (hv : validate s = none) (hmode : ctrlMode s.ctrl = 0#2)
include hinv hv hmode

/-- A slot that takes part is in [-1, 1], a Silence slot is `+0.0`. -/
theorem fMag_slotValue_le {o : OscSlot} (ho : o ∈ s.osc) {pos : F32} (hpos : isClock pos = true) :
    fMag (slotValue s pos o) ≤ fMag (float (if takesPart o then 1 else 0)) := by
  obtain ⟨hkind, hwf⟩ := wf_slot_call hv (by simp [readsSlots, hmode]) ho hpos
  have hunit : fMag (slotValue s pos o) ≤ 0x3F800000 :=
    (inUnit_iff _).1 (inUnit_osc (paramsLegal_cases hinv.params).2 hkind hwf)
  rw [takesPart_of_kind_le hkind]
  by_cases h0 : o.kind = 0#3
  · rw [slotValue, h0]
    exact Nat.zero_le _
  · have hone : fMag (float 1) = 0x3F800000 := by decide
    rw [decide_eq_true h0, if_pos rfl, hone]
    exact hunit

theorem fMag_mixSum_le {pos : F32} (hpos : isClock pos = true) : fMag (mixSum s pos) ≤ fMag (fastPeak s) := by
  have hcount : s.osc.countP takesPart ≤ 16 := List.countP_le_length.trans hinv.slots.2
  have hsum := fMag_foldl_fadd_le_float (slotValue s pos) takesPart s.osc
    (fun o ho => fMag_slotValue_le hinv hv hmode ho hpos) (acc := ZERO) (m := 0) (by omega) (Nat.zero_le _)
  rwa [Nat.zero_add] at hsum

/-- The exact search keeps to magnitudes of mix sums. -/
theorem exactPeak_fields (hperiod : s.cperiod.toNat ≤ 2 ^ 24) :
    fSign (exactPeak s) = false ∧ fMag (exactPeak s) ≤ fMag (fastPeak s) := by
  refine List.foldlRecOn (motive := fun pk => fSign pk = false ∧ fMag pk ≤ fMag (fastPeak s))
    (List.range s.cperiod.toNat) _ ⟨by decide, Nat.zero_le _⟩ fun pk hpk k hk => ?_
  have hclock : isClock (float k) = true := isClock_float ((List.mem_range.1 hk).le.trans hperiod)
  rw [peakStep]
  split
  · exact ⟨(getLsbD_31 _).symm.trans (getLsbD_fabs_31 _), (fMag_fabs _).trans_le (fMag_mixSum_le hinv hv hmode hclock)⟩
  · exact hpk

end

theorem fle_of_fMag_le {x y : F32} (hy : isFinite y = true) (hsx : fSign x = false) (hsy : fSign y = false)
    (h : fMag x ≤ fMag y) : fle x y = true := by
  have hx := isFinite_of_fMag_le hy h
  rw [fle_iff hx hy, fInt_of_fSign_eq_false hsx, fInt_of_fSign_eq_false hsy]
  exact Int.ofNat_le.2 ((fUnits_le_iff hx hy).2 h)

/-- The divide takes a value whose magnitude does not pass an integer peak into [-1, 1] (R153, R155): it applies above 1, and up
to 1 there is nothing to divide. -/
theorem inUnit_normalize {v : F32} {n : Nat} (hn : n ≤ 2 ^ 24) (h : fMag v ≤ fMag (float n)) :
    inUnit (normalize (float n) v) = true := by
  obtain ⟨hv, hle⟩ := fUnits_le_of_fMag_le_float hn h
  have hf := isFinite_float hn
  have hone : isFinite ONE = true := by decide
  have hunits : fUnits ONE = 2 ^ 149 := by decide
  have hint : fInt ONE = 2 ^ 149 := by decide
  have habove : fgt (float n) ONE = true ↔ 1 < n := by
    rw [fgt, flt_iff hone hf, fInt_float hn, hint]
    omega
  rw [inUnit_iff, normalize]
  split
  · next hgt =>
    rw [habove] at hgt
    refine fMag_fdiv_le hv hf ?_ hone ?_ <;> rw [fUnits_float hn]
    · omega
    · rw [hunits]; omega
  · next hgt =>
    rw [habove] at hgt
    refine (fUnits_le_iff hv hone).1 ?_
    rw [hunits]; omega

/-- Settles O42: every value in the chain is without a sign, so their magnitudes order them, and the sample of a frame is a mix
sum divided by the FAST peak. -/
theorem peakOrderAndNormalisedRange : Obligations.PeakOrderAndNormalisedRange := by
  intro s hinv hv hmode hperiod
  have hslots : s.osc.length ≤ 2 ^ 24 := hinv.slots.2.trans (by norm_num)
  have hcount : s.osc.countP takesPart ≤ s.osc.length := List.countP_le_length
  have hfast : isFinite (fastPeak s) = true := isFinite_float (hcount.trans hslots)
  have hfastSign : fSign (fastPeak s) = false := fSign_float _
  obtain ⟨hsign, hmag⟩ := exactPeak_fields hinv hv hmode hperiod
  refine ⟨fle_of_fMag_le (isFinite_of_fMag_le hfast hmag) (by decide) hsign (Nat.zero_le _),
    fle_of_fMag_le hfast hsign hfastSign hmag,
    fle_of_fMag_le (isFinite_float hslots) hfastSign (fSign_float _) (fMag_float_mono hcount), fun hclk hpeak => ?_⟩
  refine ⟨mixStage s, rfl, ?_⟩
  show inUnit (normalize s.peak (mixSum s s.clk)) = true
  rw [hpeak]
  exact inUnit_normalize (hcount.trans hslots) (fMag_mixSum_le hinv hv hmode hclk)

end Sys2Proof.Machine
end

section
/-! PROOFS. The session constants PEAK and CPERIOD are latched (O55), read off the cases of `Effect`. -/

namespace Sys2Proof.Machine

section
variable {i : Input} {s t : State}

theorem constants_frame (ht : frame s = .next t) : t.peak = s.peak ∧ t.cperiod = s.cperiod := by
  obtain ⟨_, rfl⟩ | ⟨_, rfl⟩ | ⟨_, rfl⟩ := frame_eq_next.1 ht <;> rw [finishFrame_frame]
  · exact ⟨rfl, rfl⟩
  · rw [fmStage_frame]; exact ⟨rfl, rfl⟩
  · rw [polyStage_frame]; exact ⟨rfl, rfl⟩

/-- Which requests can change PEAK or CPERIOD (R298). -/
theorem Effect.constants_cases (he : Effect i s t) :
    (t.peak = s.peak ∧ t.cperiod = s.cperiod) ∨ i = .rst true ∨
      ∃ w, i = .write 0x010#12 2#2 w ∧
        (decodeCmd w = .softreset ∨ (decodeCmd w = .start ∧ s.status.run = false ∧ validate s = none)) := by
  cases he with
  | started w hi hw hrun hv => exact .inr (.inr ⟨w, hi, .inr ⟨hw, hrun, hv⟩⟩)
  | reset level hi => exact .inr (hi.imp_right fun ⟨w, hi, hw⟩ => ⟨w, hi, .inl hw⟩)
  | framed _ _ ht => exact .inl (constants_frame ht)
  | quiet | raised | acknowledged | configured | stopped => exact .inl ⟨rfl, rfl⟩

end

/-- A write while `rst` is asserted has no effect (R281). -/
theorem perform_write_held {s : State} (hrst : s.rst = true) (o : BitVec 12) (z : BitVec 2) (w : Word) :
    perform (.write o z w) s = .next s := by
  simp [perform, hrst, heldInReset]

/-- Settles O55: the requests that can change the constants, of which a write has no effect while `rst` is asserted. -/
theorem sessionConstantsAreLatched : Obligations.SessionConstantsAreLatched := by
  intro s t i rest hp ht hchange
  obtain ⟨hpeak, hperiod⟩ | hrst | ⟨w, rfl, hw⟩ := (effect_step hp ht).constants_cases
  · exact absurd hchange (by simp [hpeak, hperiod])
  · exact .inl hrst
  · cases hr : s.rst with
    | false => exact .inr ⟨rfl, w, rfl, hw⟩
    | true =>
      have hheld : step s = .next (takeRequest rest s) :=
        (step_of_pending hp).trans (perform_write_held (s := takeRequest rest s) hr _ _ w)
      obtain rfl := Host.Outcome.next.inj (ht.symm.trans hheld)
      exact absurd hchange (by simp)

end Sys2Proof.Machine
end

section
/-! PROOFS. Events: the acceptance of a word (O27), the two note events (O26), the drain as a recursion on the FIFO (O28), and
the last event of a note (O29). -/

namespace Sys2Proof.Machine

/-! ### Acceptance (R177) -/

theorem pushWord_of_type_on {w : Word} (h : w.extractLsb' 16 2 = 1#2) (s : State) :
    pushWord w s = enqueue (.on (w.extractLsb' 0 7) (w.extractLsb' 8 7)) s := by
  simp [pushWord, h]

theorem pushWord_of_type_off {w : Word} (h : w.extractLsb' 16 2 = 2#2) (s : State) :
    pushWord w s = enqueue (.off (w.extractLsb' 0 7) (w.extractLsb' 8 7)) s := by
  simp [pushWord, h]

theorem pushWord_of_type_reserved {w : Word} (h : w.extractLsb' 16 2 = 0#2 ∨ w.extractLsb' 16 2 = 3#2) (s : State) :
    pushWord w s = raise .evterr s := by
  rcases h with h | h <;> simp [pushWord, h]

theorem enqueue_of_full {s : State} (h : s.fifo.length = s.par.evqDepth) (e : Event) : enqueue e s = raise .evqovf s :=
  if_pos h

theorem enqueue_of_room {s : State} (h : s.fifo.length ≠ s.par.evqDepth) (e : Event) : enqueue e s = pushTail e s :=
  if_neg h

/-- Settles O27: TYPE decides whether the word is an event, and the room in the FIFO whether the event enters. -/
theorem pushAcceptance : Obligations.PushAcceptance := by
  intro s w
  refine ⟨fun hty => congrArg Host.Outcome.next (pushWord_of_type_reserved hty s), rfl, rfl, fun hty hfull => ?_,
    fun hty hroom => ?_, fun hty hroom => ?_⟩ <;> refine congrArg Host.Outcome.next ?_
  · rcases hty with hty | hty
    · exact (pushWord_of_type_on hty s).trans (enqueue_of_full hfull _)
    · exact (pushWord_of_type_off hty s).trans (enqueue_of_full hfull _)
  · exact (pushWord_of_type_on hty s).trans (enqueue_of_room hroom _)
  · exact (pushWord_of_type_off hty s).trans (enqueue_of_room hroom _)

/-! ### The two events (R178, R179) -/

/-- A NoteOff of an active note. -/
theorem noteOffOp_of_active {s : State} {n : BitVec 7} (h : (voiceAt s n).active = true) :
    noteOffOp n s = setVoice n { active := false, loud := ZERO } s := if_pos h

/-- A NoteOff of an absent note. -/
theorem noteOffOp_of_absent {s : State} {n : BitVec 7} (h : (voiceAt s n).active = false) : noteOffOp n s = s :=
  if_neg (Bool.eq_false_iff.1 h)

/-- Settles O26: NOTE_ON sets its entry whatever it was, NOTE_OFF only where the note is active. -/
theorem noteEvents : Obligations.NoteEvents := fun _ _ _ =>
  ⟨rfl, fun h => congrArg Host.Outcome.next (noteOffOp_of_active h),
    fun h => congrArg Host.Outcome.next (noteOffOp_of_absent h)⟩

/-! ### The drain (R171) -/

theorem fifo_drain (s : State) : (drain s).fifo = [] := by rw [drain_frame]

theorem drain_of_empty {s : State} (h : s.fifo = []) : drain s = s := by
  have hclear : clearFifo s = s := congrArg (fun q => { s with fifo := q }) h.symm
  rw [drain, h]
  exact hclear

/-- An event reads nothing of the FIFO, and leaves it. -/
theorem applyEvent_withFifo (s : State) (q : List Event) (e : Event) :
    applyEvent { s with fifo := q } e = { applyEvent s e with fifo := q } := by
  cases e with
  | on n v => rfl
  | off n v =>
    show noteOffOp n { s with fifo := q } = { noteOffOp n s with fifo := q }
    cases ha : (voiceAt s n).active with
    | true => rw [noteOffOp_of_active ha, noteOffOp_of_active (s := { s with fifo := q }) ha]; rfl
    | false => rw [noteOffOp_of_absent ha, noteOffOp_of_absent (s := { s with fifo := q }) ha]

/-- The drain of a FIFO with a head applies the head with the FIFO shortened, and goes on. -/
theorem drain_of_cons {s : State} {e : Event} {rest : List Event} (h : s.fifo = e :: rest) :
    drain s = drain (applyEvent { s with fifo := rest } e) := by
  have hhead := applyEvent_withFifo s rest e
  have hclear : clearFifo (applyEvent { s with fifo := rest } e) = applyEvent (clearFifo s) e := by
    rw [hhead]
    exact (applyEvent_withFifo s [] e).symm
  have hrest : (applyEvent { s with fifo := rest } e).fifo = rest := by rw [hhead]
  rw [drain, h, List.foldl_cons, ← hclear, drain, hrest]

/-- Settles O28: NOTE_ON and NOTE_OFF are the application of one event. -/
theorem drainRunsTheHead : Obligations.DrainRunsTheHead := fun s =>
  ⟨fifo_drain s, drain_of_empty, fun _ _ _ h => ⟨_, rfl, drain_of_cons h⟩, fun _ _ _ h => ⟨_, rfl, drain_of_cons h⟩⟩

/-! ### The last event of a note (R173) -/

/-- The note an event is for. -/
def Event.note : Event → BitVec 7
  | .on n _ => n
  | .off n _ => n

/-- The state an event leaves its note in. -/
def Event.voice : Event → Voice
  | .on _ v => { active := true, loud := loudRom v }
  | .off _ _ => { active := false, loud := ZERO }

/-- A note whose loudness is `+0.0` while it is inactive (R170): a NoteOff leaves it inactive with `+0.0` even when absent. -/
theorem voiceAt_applyEvent {s : State} {n : BitVec 7} (h : (voiceAt s n).active = false → (voiceAt s n).loud = ZERO)
    (e : Event) : voiceAt (applyEvent s e) n = if e.note = n then e.voice else voiceAt s n := by
  cases e with
  | on k v => exact (voiceAt_setVoice k n _ s).trans (if_congr eq_comm rfl rfl)
  | off k v =>
    show voiceAt (noteOffOp k s) n = if k = n then { active := false, loud := ZERO } else voiceAt s n
    rw [noteOffOp_voiceAt]
    by_cases hk : k = n
    · subst hk
      cases ha : (voiceAt s k).active with
      | true => simp
      | false =>
        have habsent : voiceAt s k = { active := false, loud := ZERO } := by rw [← ha, ← h ha]
        simp [habsent]
    · rw [if_neg hk, if_neg fun hc => hk hc.1.symm]

/-- A note is left in the state of the last of its events, and as it was without one. -/
theorem voiceAt_foldl_applyEvent (l : List Event) {s : State} {n : BitVec 7}
    (h : (voiceAt s n).active = false → (voiceAt s n).loud = ZERO) :
    voiceAt (l.foldl applyEvent s) n =
      ((l.filter fun e => decide (e.note = n)).getLast?.map Event.voice).getD (voiceAt s n) := by
  induction l generalizing s with
  | nil => rfl
  | cons e l ih =>
    have hstep := voiceAt_applyEvent h e
    rw [List.foldl_cons]
    by_cases he : e.note = n
    · rw [if_pos he] at hstep
      have hidle : (voiceAt (applyEvent s e) n).active = false → (voiceAt (applyEvent s e) n).loud = ZERO := by
        rw [hstep]
        cases e <;> simp [Event.voice]
      rw [ih hidle, hstep, List.filter_cons_of_pos (by simpa using he), List.getLast?_cons]
      cases (l.filter fun e => decide (e.note = n)).getLast? <;> rfl
    · rw [if_neg he] at hstep
      rw [ih (by rwa [hstep]), hstep, List.filter_cons_of_neg (by simpa using he)]

/-- The events of one note, as the statement selects them. -/
theorem filter_note_eq (l : List Event) (n : BitVec 7) :
    (l.filter fun e => decide (e.note = n)) =
      l.filter fun e => match e with | .on k _ => decide (k = n) | .off k _ => decide (k = n) :=
  List.filter_congr fun e _ => by cases e <;> rfl

/-- Settles O29: after the drain a POLY frame changes no note. -/
theorem lastEventWins : Obligations.LastEventWins := by
  intro s n hidle
  have hdrain : voiceAt (drain s) n = _ := voiceAt_foldl_applyEvent s.fifo (s := clearFifo s) (n := n) (hidle n)
  refine ⟨polyStage s, rfl, by rw [polyStage_frame], ?_⟩
  rw [voiceAt_congr (t := polyStage s) (s := drain s) (by rw [polyStage_frame]), hdrain, filter_note_eq]
  rcases (List.filter _ s.fifo).getLast? with _ | ⟨_ | _⟩ <;> rfl

end Sys2Proof.Machine
end

section
/-! PROOFS. The two ROMs (O30): each of their 128 entries is evaluated. -/

namespace Sys2Proof.Machine

/-- LOUD_ROM is the square of the velocity over 127, each operation rounded on its own (R175). -/
theorem loudRom_eq (v : BitVec 7) :
    loudRom v = fmul (fdiv (float v.toNat) (float 127)) (fdiv (float v.toNat) (float 127)) := by
  revert v; decide +kernel

/-- The unit in the last place of `NOTE_ROM[n]`, in units of 2^-149. -/
def noteUlp (n : BitVec 7) : Nat := 2 ^ (fMag (noteRom n) / 2 ^ 23 - 1)

/-- The two middles around `NOTE_ROM[n]` enclose 440 · 2^((n - 69)/12), all raised to the power 12 (R176). -/
theorem noteRom_near (n : BitVec 7) :
    (2 * fUnits (noteRom n) - noteUlp n) ^ 12 * 2 ^ 69 < (2 * 440 * 2 ^ 149) ^ 12 * 2 ^ n.toNat ∧
      (2 * 440 * 2 ^ 149) ^ 12 * 2 ^ n.toNat < (2 * fUnits (noteRom n) + noteUlp n) ^ 12 * 2 ^ 69 := by
  revert n; decide +kernel

/-- Settles O30: the formula of each table and the range of the first. -/
theorem romsFollowTheirFormulas : Obligations.RomsFollowTheirFormulas := fun n =>
  ⟨loudRom_eq n, inUnitPos_loudRom n, noteRom_near n⟩

end Sys2Proof.Machine
end

section
/-! PROOFS. The sample of a POLY frame (O47): rounding is monotone, so step by step the weighted sum stays below the loudness
sum, and the divide takes it into [-1, 1]. -/

namespace Sys2Proof.Machine

/-! ### Magnitudes of results -/

theorem RoundsTo.fMag_eq {r : F32} {N : Int} {d : Nat} (h : RoundsTo r N d) : fMag r = roundMag N.natAbs d := by
  obtain ⟨neg, -, -, rfl⟩ := h
  exact fMag_packSign neg (roundMag_lt _ _)

theorem RoundsTo.fInt_nonneg {r : F32} {N : Int} {d : Nat} (h : RoundsTo r N d) (hN : 0 ≤ N) : 0 ≤ fInt r := by
  obtain ⟨neg, -, hpos, rfl⟩ := h
  rw [fInt_packSign neg (roundMag_lt _ _)]
  obtain rfl | hlt := hN.eq_or_lt
  · rw [Int.natAbs_zero, roundMag_zero]
    cases neg <;> decide
  · rw [hpos hlt]
    exact Int.natCast_nonneg _

/-- Rounded sums keep the order of magnitudes when the greater operands have no sign. -/
theorem fMag_fadd_mono {a b t l : F32} (ht : isFinite t = true) (hl : isFinite l = true) (ht0 : 0 ≤ fInt t)
    (hl0 : 0 ≤ fInt l) (ha : fMag a ≤ fMag t) (hb : fMag b ≤ fMag l) : fMag (fadd a b) ≤ fMag (fadd t l) := by
  have hfa := isFinite_of_fMag_le ht ha
  have hfb := isFinite_of_fMag_le hl hb
  have hua := (fUnits_le_iff hfa ht).2 ha
  have hub := (fUnits_le_iff hfb hl).2 hb
  rw [← natAbs_fInt, ← natAbs_fInt] at hua hub
  rw [(fadd_roundsTo hfa hfb).fMag_eq, (fadd_roundsTo ht hl).fMag_eq]
  exact roundMag_mono Nat.one_pos Nat.one_pos (by omega)

/-- A product with a factor of magnitude at most 1 does not pass the other factor. -/
theorem fMag_fmul_le_left {w v : F32} (hw : isFinite w = true) (hv : inUnit v = true) : fMag (fmul w v) ≤ fMag w := by
  have hone : isFinite ONE = true := by decide
  have hunits : fUnits ONE = 2 ^ 149 := by decide
  have hmag : fMag v ≤ fMag ONE := (inUnit_iff v).1 hv
  have hfin := isFinite_of_fMag_le hone hmag
  exact fMag_fmul_le hw hfin hw (Nat.mul_le_mul_left _ (hunits ▸ (fUnits_le_iff hfin hone).2 hmag))

theorem inUnit_of_inUnitPos {x : F32} (h : inUnitPos x = true) : inUnit x = true := by
  have hkey : fKey (fneg ONE) ≤ fKey ZERO := by decide
  simp only [inUnit, inUnitPos, fle, Bool.and_eq_true, decide_eq_true_eq] at *
  obtain ⟨⟨⟨-, hnum⟩, hlow⟩, hhigh⟩ := h
  exact ⟨⟨⟨by decide, hnum⟩, hkey.trans hlow⟩, hhigh⟩

/-- [0.0, 1.0] as an interval of values: `-0.0` is in it. -/
theorem inUnitPos_iff_fInt (x : F32) : inUnitPos x = true ↔ isFinite x = true ∧ 0 ≤ fInt x ∧ fInt x ≤ fInt ONE := by
  have h0 : isFinite ZERO = true := by decide
  have h1 : isFinite ONE = true := by decide
  have hzero : fInt ZERO = 0 := by decide
  constructor
  · intro h
    obtain ⟨hx, -⟩ := (inUnit_iff_fInt x).1 (inUnit_of_inUnitPos h)
    rw [inUnitPos, Bool.and_eq_true, fle_iff h0 hx, fle_iff hx h1, hzero] at h
    exact ⟨hx, h⟩
  · rintro ⟨hx, h⟩
    rw [inUnitPos, Bool.and_eq_true, fle_iff h0 hx, fle_iff hx h1, hzero]
    exact h

theorem fMag_le_one_of_inUnitPos {x : F32} (h : inUnitPos x = true) : fMag x ≤ fMag ONE :=
  (inUnit_iff x).1 (inUnit_of_inUnitPos h)

/-- The divide takes a value that does not pass a peak without a sign into [-1, 1]: it applies above 1, and up to 1 there is
nothing to divide. -/
theorem inUnit_normalize_of_le {peak v : F32} (hp : isFinite peak = true) (hp0 : 0 ≤ fInt peak)
    (hv : fMag v ≤ fMag peak) : inUnit (normalize peak v) = true := by
  have hone : isFinite ONE = true := by decide
  have hunits : fUnits ONE = 2 ^ 149 := by decide
  have hint : fInt ONE = 2 ^ 149 := by decide
  have hfin := isFinite_of_fMag_le hp hv
  have hle := (fUnits_le_iff hfin hp).2 hv
  have hpeak := natAbs_fInt peak
  have habove : fgt peak ONE = true ↔ 2 ^ 149 < fInt peak := by rw [fgt, flt_iff hone hp, hint]
  rw [inUnit_iff, normalize]
  split
  · next hgt =>
    rw [habove] at hgt
    refine fMag_fdiv_le hfin hp (by omega) hone ?_
    rw [hunits]
    omega
  · next hgt =>
    rw [habove] at hgt
    refine (fUnits_le_iff hfin hone).1 ?_
    rw [hunits]
    omega

/-! ### The two sums of R181 -/

/-- What the weighted sum `acc` and the loudness sum `tot` are after `m` voices at most. -/
structure VoiceSums (m : Nat) (acc tot : F32) : Prop where
  below : fMag acc ≤ fMag tot
  unsigned : 0 ≤ fInt tot
  atMost : fMag tot ≤ fMag (float m)

theorem voiceSums_add {m : Nat} {acc tot w v : F32} (h : VoiceSums m acc tot) (hm : m + 1 ≤ 2 ^ 24)
    (hw : inUnitPos w = true) (hv : inUnit v = true) : VoiceSums (m + 1) (fadd acc (fmul w v)) (fadd tot w) := by
  obtain ⟨hbelow, hunsigned, hatMost⟩ := h
  have hone : fMag (float 1) = fMag ONE := by decide
  have hwone := fMag_le_one_of_inUnitPos hw
  obtain ⟨hfw, hw0, -⟩ := (inUnitPos_iff_fInt w).1 hw
  have hftot := (fUnits_le_of_fMag_le_float (by omega) hatMost).1
  have hsum : fMag (fadd tot w) ≤ fMag (float (m + 1)) := fMag_fadd_le_float hm hatMost (hone ▸ hwone)
  exact ⟨fMag_fadd_mono hftot hfw hunsigned hw0 hbelow (fMag_fmul_le_left hfw hv),
    (fadd_roundsTo hftot hfw).fInt_nonneg (add_nonneg hunsigned hw0), hsum⟩

/-- The sums over a list of voices. -/
theorem voiceSums_foldl {α : Type} {w v : α → F32} (l : List α) (hw : ∀ x ∈ l, inUnitPos (w x) = true)
    (hv : ∀ x ∈ l, inUnit (v x) = true) {m : Nat} {acc tot : F32} (hm : m + l.length ≤ 2 ^ 24) (h : VoiceSums m acc tot) :
    VoiceSums (m + l.length) (l.foldl (fun acc x => fadd acc (fmul (w x) (v x))) acc)
      (l.foldl (fun tot x => fadd tot (w x)) tot) := by
  induction l generalizing m acc tot with
  | nil => exact h
  | cons x l ih =>
    have hlen : m + (x :: l).length = m + 1 + l.length := by rw [List.length_cons]; omega
    rw [hlen] at hm ⊢
    exact ih (fun y hy => hw y (List.mem_cons_of_mem x hy)) (fun y hy => hv y (List.mem_cons_of_mem x hy)) hm
      (voiceSums_add h (by omega) (hw x List.mem_cons_self) (hv x List.mem_cons_self))

theorem VoiceSums.mono {m n : Nat} {acc tot : F32} (h : VoiceSums m acc tot) (hmn : m ≤ n) : VoiceSums n acc tot :=
  { h with atMost := h.atMost.trans (fMag_float_mono hmn) }

theorem length_activeNotes_le (s : State) : (activeNotes s).length ≤ 128 :=
  (List.length_filter_le _ _).trans (by simp [allNotes])

section
variable {s : State} (hinv : s.Inv) (hrun : s.status.run = true) (hclk : s.clockOk) (hmode : ctrlMode s.ctrl = 2#2)
include hinv hrun hclk hmode

/-- A voice of a POLY session is in [-1, 1] (R180, R137). -/
theorem inUnit_voiceValue (n : BitVec 7) : inUnit (voiceValue s n) = true :=
  have hv := hinv.validated hrun
  inUnit_osc (paramsLegal_cases hinv.params).2 (vkind_of_validate hv hmode) fun _ =>
    wf_call hv hclk (isPosFinite_noteRom n)

/-- The two sums over the voices that the drain has left. -/
theorem voiceSums_drain : VoiceSums 128 (weightedSum (drain s)) (loudnessSum (drain s)) := by
  have hlen := length_activeNotes_le (drain s)
  have hstart : VoiceSums 0 ZERO ZERO := ⟨le_rfl, by decide, by decide⟩
  refine (voiceSums_foldl (activeNotes (drain s)) (fun n _ => drain_loudness hinv n) (fun n _ => ?_) (by omega)
    hstart).mono (by omega)
  rw [voiceValue_drain]
  exact inUnit_voiceValue hinv hrun hclk hmode n

/-- The sample and the loudness sum of a POLY frame (R186, R181). -/
theorem polyStage_bounds :
    inUnit (polyStage s).mixout = true ∧ fle ZERO (polyStage s).loudsum = true ∧
      fle (polyStage s).loudsum (float 128) = true := by
  by_cases hsilent : nvoice (drain s) = 0
  · rw [polyStage_of_silent hsilent]
    exact ⟨(by decide : inUnit ZERO = true), (by decide : fle ZERO ZERO = true), (by decide : fle ZERO (float 128) = true)⟩
  · obtain ⟨hbelow, hunsigned, hatMost⟩ := voiceSums_drain hinv hrun hclk hmode
    obtain ⟨hfin, hunits⟩ := fUnits_le_of_fMag_le_float (by norm_num) hatMost
    have habs := natAbs_fInt (loudnessSum (drain s))
    rw [polyStage_of_voices hsilent]
    refine ⟨inUnit_normalize_of_le hfin hunsigned hbelow, (fle_iff (by decide) hfin).2 hunsigned,
      (fle_iff hfin (isFinite_float (by norm_num))).2 ?_⟩
    rw [fInt_float (by norm_num)]
    omega

end

/-- Settles O47: with voices the bounds of the two sums, without one the frame writes zeros. -/
theorem polyMagnitudeBound : Obligations.PolyMagnitudeBound :=
  fun s hinv hrun hclk hmode => ⟨polyStage s, rfl, polyStage_bounds hinv hrun hclk hmode⟩

end Sys2Proof.Machine
end

section
/-! PROOFS. The derived filter coefficient is in [0, 1] (R190): with a cutoff in range every intermediate value has no sign and
is no NaN, whether or not a quotient runs over to infinity or down to zero. -/

namespace Sys2Proof.Machine

/-- A number without a sign, infinity included, whose exponent and fraction fields are at least `lo`. -/
structure UnsignedFrom (lo : Nat) (x : F32) : Prop where
  sign : fSign x = false
  low : lo ≤ fMag x
  number : fMag x ≤ 0x7F800000

theorem unsignedFrom_packSign {lo m : Nat} (hlo : lo ≤ m) (hm : m ≤ 0x7F800000) : UnsignedFrom lo (packSign false m) := by
  have hlt : m < 2 ^ 31 := by omega
  have hmag := fMag_packSign false hlt
  exact ⟨fSign_packSign false hlt, hmag.symm ▸ hlo, hmag.symm ▸ hm⟩

theorem UnsignedFrom.isNaN_eq_false {lo : Nat} {x : F32} (h : UnsignedFrom lo x) : isNaN x = false :=
  decide_eq_false h.number.not_gt

theorem UnsignedFrom.isFinite {lo : Nat} {x : F32} (h : UnsignedFrom lo x) (hinf : isInf x = false) : isFinite x = true :=
  isFinite_of_not_inf h.isNaN_eq_false hinf

/-- A number above zero. -/
theorem unsignedFrom_of_fKey_pos {x : F32} (hx : isNaN x = false) (h : 0 < fKey x) : UnsignedFrom 1 x := by
  have hbounds := fKey_bounds hx
  unfold fKey at h hbounds
  cases hs : fSign x with
  | true => rw [if_pos hs] at h; omega
  | false =>
    rw [if_neg (Bool.eq_false_iff.1 hs)] at h hbounds
    exact ⟨hs, by omega, by omega⟩

/-- A finite value over a number, neither with a sign nor both zero: over infinity it is zero, over zero infinity. -/
theorem unsignedFrom_fdiv {a b : F32} {lo : Nat} (ha : isFinite a = true) (hsa : fSign a = false) (hb : UnsignedFrom lo b)
    (hne : 0 < fMag a ∨ 0 < lo) : UnsignedFrom 0 (fdiv a b) := by
  have hquot : ∃ m, m ≤ 0x7F800000 ∧ fdiv a b = packSign false m := by
    unfold fdiv
    simp only [isNaN_of_finite ha, isInf_of_finite ha, hb.isNaN_eq_false, hsa, hb.sign, Bool.or_self, Bool.false_eq_true,
      if_false, bne_self_eq_false]
    split
    · exact ⟨0, Nat.zero_le _, rfl⟩
    · split
      · next hzero =>
        have hb0 : fMag b = 0 := of_decide_eq_true hzero
        have ha0 : ¬ isZero a = true := fun h => by
          have := of_decide_eq_true h
          have := hb.low
          omega
        exact ⟨_, le_rfl, if_neg ha0⟩
      · exact ⟨_, roundMag_le_inf _ _, rfl⟩
  obtain ⟨m, hm, he⟩ := hquot
  exact he ▸ unsignedFrom_packSign (Nat.zero_le m) hm

theorem unsignedFrom_one_add {x : F32} (hx : UnsignedFrom 0 x) : UnsignedFrom (fMag ONE) (fadd ONE x) := by
  have hone : isFinite ONE = true := by decide
  cases hinf : isInf x with
  | true =>
    have hsum : fadd ONE x = x := by
      simp [fadd, hx.isNaN_eq_false, hinf, isNaN_of_finite hone, isInf_of_finite hone]
    have hmag : fMag x = 0x7F800000 := of_decide_eq_true hinf
    rw [hsum]
    exact ⟨hx.sign, hmag ▸ by decide, hx.number⟩
  | false =>
    have hfin := hx.isFinite hinf
    have hint : fInt ONE = fUnits ONE := by decide
    have hpos : 0 < fUnits ONE := by decide
    obtain ⟨neg, -, hneg, heq⟩ := fadd_roundsTo hone hfin
    rw [hint, fInt_of_fSign_eq_false hx.sign] at hneg heq
    rw [heq, hneg (by omega)]
    exact unsignedFrom_packSign (le_roundMag Nat.one_pos hone (by omega)) (roundMag_le_inf _ _)

theorem inUnitPos_of_unsigned {x : F32} (hs : fSign x = false) (h : fMag x ≤ fMag ONE) : inUnitPos x = true := by
  have hone : isFinite ONE = true := by decide
  have hx := isFinite_of_fMag_le hone h
  have hle := (fUnits_le_iff hx hone).2 h
  have hint : fInt ONE = fUnits ONE := by decide
  rw [inUnitPos_iff_fInt, fInt_of_fSign_eq_false hs, hint]
  exact ⟨hx, by omega, by omega⟩

theorem inUnitPos_one_div {d : F32} (hd : UnsignedFrom (fMag ONE) d) : inUnitPos (fdiv ONE d) = true := by
  have hone : isFinite ONE = true := by decide
  have hsign := (unsignedFrom_fdiv hone (by decide) hd (.inr (by decide))).sign
  refine inUnitPos_of_unsigned hsign ?_
  cases hinf : isInf d with
  | true =>
    have hquot : fdiv ONE d = packSign (fSign ONE != fSign d) 0 := by
      simp [fdiv, hd.isNaN_eq_false, hinf, isNaN_of_finite hone, isInf_of_finite hone]
    rw [hquot, fMag_packSign _ (by norm_num)]
    exact Nat.zero_le _
  | false =>
    have hfin := hd.isFinite hinf
    have hle := (fUnits_le_iff hone hfin).2 hd.low
    have hunits : fUnits ONE = 2 ^ 149 := by decide
    exact fMag_fdiv_le hone hfin (by omega) hone (Nat.mul_le_mul_left _ (hunits ▸ hle))

/-- The check of CUTOFF makes the derived coefficient a number in [0, 1] (R190, R252 code 0x07). -/
theorem inUnitPos_derivedAlpha {cutoff sr : F32} (h0 : fgt cutoff ZERO = true)
    (hhalf : flt cutoff (fdiv sr TWO) = true) : inUnitPos (derivedAlpha cutoff sr) = true := by
  have hzero : fKey ZERO = 0 := by decide
  obtain ⟨hcut, -, hcut0⟩ := fgt_iff_fKey.1 h0
  obtain ⟨hrate, -, hlt⟩ := fgt_iff_fKey.1 hhalf
  rw [hzero] at hcut0
  have hcutoff := unsignedFrom_of_fKey_pos hcut hcut0
  have hfin : isFinite cutoff = true := hcutoff.isFinite (Bool.eq_false_iff.2 fun hinf => by
    have hbounds := fKey_bounds hrate
    have hmag : fMag cutoff = 0x7F800000 := of_decide_eq_true hinf
    rw [fKey, if_neg (Bool.eq_false_iff.1 hcutoff.sign)] at hlt
    omega)
  have hquot := unsignedFrom_fdiv hfin hcutoff.sign (unsignedFrom_of_fKey_pos hrate (hcut0.trans hlt)) (.inr Nat.one_pos)
  have hratio := unsignedFrom_fdiv (a := PI32) (by decide) (by decide) hquot (.inl (by decide))
  exact inUnitPos_one_div (unsignedFrom_one_add hratio)

end Sys2Proof.Machine
end

section
/-! PROOFS. What a frame writes (O48). The bound 16 on FSTATE is kept by the filter update, since the coefficients add up to at
most 1 + 2^-24, which is half a unit in the last place above 1. -/

namespace Sys2Proof.Machine

/-! ### The stages after the mixed sample -/

/-- A number over the peak is no greater than the number, since the divide applies above 1 (R153). -/
theorem fMag_normalize_le {peak v : F32} (hv : isFinite v = true) : fMag (normalize peak v) ≤ fMag v := by
  rw [normalize]
  split
  · next hgt =>
    obtain ⟨hnum, -, hkey⟩ := fgt_iff_fKey.1 hgt
    cases hinf : isInf peak with
    | true =>
      have hquot : fdiv v peak = packSign (fSign v != fSign peak) 0 := by
        simp [fdiv, hnum, hinf, isNaN_of_finite hv, isInf_of_finite hv]
      rw [hquot, fMag_packSign _ (by norm_num)]
      exact Nat.zero_le _
    | false =>
      have hfin := isFinite_of_not_inf hnum hinf
      have hone : fInt ONE = 2 ^ 149 := by decide
      have habs := natAbs_fInt peak
      have hpeak : 2 ^ 149 < fInt peak := hone ▸ (fKey_lt_iff (by decide) hfin).1 hkey
      exact fMag_fdiv_le hv hfin (by omega) hv (Nat.mul_le_mul_left _ (by omega))
  · exact le_rfl

/-- A value of at most 2^149 units has a pattern for its sixteenfold. -/
theorem exists_sixteenfold {c : F32} (hc : isFinite c = true) (h1 : fUnits c ≤ 2 ^ 149) :
    ∃ y, isFinite y = true ∧ fUnits y = 16 * fUnits c := by
  obtain ⟨s, e, hs, -, hu⟩ := exists_fUnits hc
  obtain rfl | hs0 := Nat.eq_zero_or_pos s
  · exact ⟨ZERO, by decide, by rw [hu, Nat.zero_mul]; decide⟩
  · have he : e ≤ 149 := (Nat.pow_le_pow_iff_right (by norm_num)).1 ((Nat.le_mul_of_pos_left _ hs0).trans (hu ▸ h1))
    have hvalue : s * 2 ^ (e + 4) = 16 * fUnits c := by rw [hu]; ring
    have hmag : fMag (packSign false (roundMag (s * 2 ^ (e + 4)) 1)) ≤ fMag (float 16) := by
      rw [fMag_packSign _ (roundMag_lt _ _)]
      exact roundMag_le Nat.one_pos (isFinite_float (by norm_num)) (by rw [hvalue, fUnits_float (by norm_num)]; omega)
    exact ⟨_, isFinite_of_fMag_le (isFinite_float (by norm_num)) hmag, hvalue ▸ fUnits_roundMag false hs (by omega)⟩

theorem fmul_le_sixteenfold {c x : F32} (hc : isFinite c = true) (h1 : fUnits c ≤ 2 ^ 149)
    (hx : fMag x ≤ fMag (float 16)) : isFinite (fmul c x) = true ∧ fUnits (fmul c x) ≤ 16 * fUnits c := by
  obtain ⟨hfx, hux⟩ := fUnits_le_of_fMag_le_float (by norm_num) hx
  obtain ⟨y, hy, hyc⟩ := exists_sixteenfold hc h1
  have hle : fMag (fmul c x) ≤ fMag y := fMag_fmul_le hc hfx hy <| by
    calc fUnits c * fUnits x ≤ fUnits c * (16 * 2 ^ 149) := Nat.mul_le_mul_left _ hux
      _ = fUnits y * 2 ^ 149 := by rw [hyc]; ring
  have hfin := isFinite_of_fMag_le hy hle
  exact ⟨hfin, hyc ▸ (fUnits_le_iff hfin hy).2 hle⟩

/-- The coefficient and its complement add up to 1 but for the rounding of the complement. -/
theorem complement_of_inUnitPos {c : F32} (hc : inUnitPos c = true) :
    isFinite (fsub ONE c) = true ∧ fUnits (fsub ONE c) ≤ 2 ^ 149 ∧ fUnits c + fUnits (fsub ONE c) ≤ 2 ^ 149 + 2 ^ 125 := by
  obtain ⟨hfin, h0, h1⟩ := (inUnitPos_iff_fInt c).1 hc
  have hone : isFinite ONE = true := by decide
  have hint : fInt ONE = 2 ^ 149 := by decide
  have hzero : fInt ZERO = 0 := by decide
  have habs := natAbs_fInt c
  have habs' := natAbs_fInt (fsub ONE c)
  rw [hint] at h1
  obtain ⟨hfs, hs0, hs1⟩ := fsub_between hone hfin (lo := ZERO) (hi := ONE) (by decide) hone (by omega) (by omega)
  have hnear := roundMag_near (n := 2 ^ 149 - fUnits c) (d := 1) (e := 126) Nat.one_pos (by norm_num) (by omega)
  have hmag : fMag (fsub ONE c) = roundMag (2 ^ 149 - fUnits c) 1 := by
    rw [(fsub_roundsTo hone hfin).fMag_eq, hint]
    congr 1
    omega
  rw [← hmag, ← fUnits_eq_magUnits] at hnear
  exact ⟨hfs, by omega, by omega⟩

/-- The filter update keeps the magnitude of its input and its state below 16 (R191). -/
theorem fMag_filterOutput_le {c f x : F32} (hc : inUnitPos c = true) (hf : fMag f ≤ fMag (float 16))
    (hx : fMag x ≤ fMag (float 16)) : fMag (filterOutput c f x) ≤ fMag (float 16) := by
  obtain ⟨hfin, h0, h1⟩ := (inUnitPos_iff_fInt c).1 hc
  have hint : fInt ONE = 2 ^ 149 := by decide
  have habs := natAbs_fInt c
  obtain ⟨hfs, hs1, hsum⟩ := complement_of_inUnitPos hc
  obtain ⟨hfa, ha⟩ := fmul_le_sixteenfold hfin (by omega) hx
  obtain ⟨hfb, hb⟩ := fmul_le_sixteenfold hfs hs1 hf
  rw [← natAbs_fInt] at ha hb
  have htie : roundMag (2 ^ 153 + 2 ^ 129) 1 = fMag (float 16) := by decide +kernel
  rw [filterOutput, (fadd_roundsTo hfa hfb).fMag_eq, ← htie]
  exact roundMag_mono Nat.one_pos Nat.one_pos (by omega)

/-- The clamp of a number (R206). -/
theorem inUnit_clampUnit {y : F32} (hy : isNaN y = false) : inUnit (clampUnit y) = true := by
  have hone : isNaN ONE = false ∧ isNaN (fneg ONE) = false := by decide
  rw [clampUnit]
  split
  · decide
  · split
    · decide
    · next hhigh hlow =>
      simp only [fgt, flt, hy, hone, Bool.not_false, Bool.true_and, decide_eq_true_eq, not_lt] at hhigh hlow
      simp [inUnit, fle, hy, hone, hhigh, hlow]

/-- The filter stage with an input and a state below 16 (R205). -/
theorem filterStage_bounds {s : State} (halpha : ctrlFen s.ctrl = true → inUnitPos s.alpha = true)
    (hf : fMag s.fstate ≤ fMag (float 16)) (hx : fMag s.dp ≤ fMag (float 16)) :
    fMag (filterStage s).fstate ≤ fMag (float 16) ∧ fMag (filterStage s).dp ≤ fMag (float 16) := by
  unfold filterStage
  split
  · next hfen => exact ⟨fMag_filterOutput_le (halpha hfen) hf hx, fMag_filterOutput_le (halpha hfen) hf hx⟩
  · exact ⟨hf, hx⟩

/-- FSTATE and OUT after a frame are those of the filter and the clamp. -/
theorem finishFrame_results (s : State) :
    (finishFrame s).fstate = (filterStage (volumeStage s)).fstate ∧
      (finishFrame s).out = clampUnit (filterStage (volumeStage s)).dp := by
  unfold finishFrame countStage clockStage
  split <;> exact ⟨rfl, rfl⟩

theorem finishFrame_bounds {s : State} (hvol : inUnitPos s.volume = true)
    (halpha : ctrlFen s.ctrl = true → inUnitPos s.alpha = true) (hf : fMag s.fstate ≤ fMag (float 16))
    (hm : fMag s.dp ≤ fMag (float 16)) :
    fMag (finishFrame s).fstate ≤ fMag (float 16) ∧ (finishFrame s).outOk := by
  have hsixteen : isFinite (float 16) = true := isFinite_float (by norm_num)
  have hv : fMag (fmul s.dp s.volume) ≤ fMag (float 16) :=
    (fMag_fmul_le_left (isFinite_of_fMag_le hsixteen hm) (inUnit_of_inUnitPos hvol)).trans hm
  obtain ⟨hfstate, hdp⟩ := filterStage_bounds (s := volumeStage s) halpha hf hv
  obtain ⟨heqf, heqo⟩ := finishFrame_results s
  rw [heqf, State.outOk, heqo]
  exact ⟨hfstate, inUnit_clampUnit (isNaN_of_finite (isFinite_of_fMag_le hsixteen hdp))⟩

/-! ### The configuration of a session -/

theorem volume_of_validate {s : State} (hv : validate s = none) : inUnitPos s.volume = true := by
  obtain ⟨-, -, -, -, -, -, -, -, hvol⟩ := (validate_eq_none_iff s).1 hv
  simpa [checkVolume, plainCheck_eq_none_iff] using hvol

theorem clkmod_of_validate {s : State} (hv : validate s = none) : s.clkmod.toNat ≤ 2 ^ 24 := by
  obtain ⟨-, -, hmod, -⟩ := (validate_eq_none_iff s).1 hv
  simpa [checkClkmod, plainCheck_eq_none_iff] using hmod

theorem cutoff_of_validate {s : State} (hv : validate s = none) (hf : ctrlFen s.ctrl = true) (ha : ctrlAcalc s.ctrl = true) :
    fgt s.cutoff ZERO = true ∧ flt s.cutoff (fdiv (sampleRate s) TWO) = true := by
  obtain ⟨-, -, -, -, -, -, hcut, -⟩ := (validate_eq_none_iff s).1 hv
  simpa [checkCutoff, plainCheck_eq_none_iff, hf, ha] using hcut

/-- The filter of a session has a coefficient in [0, 1], derived by START or checked by it. -/
theorem alpha_of_session {s : State} (hinv : s.Inv) (hrun : s.status.run = true) (hf : ctrlFen s.ctrl = true) :
    inUnitPos s.alpha = true := by
  have hv := hinv.validated hrun
  cases ha : ctrlAcalc s.ctrl with
  | false => exact inUnitPos_alpha_of_validate hv hf ha
  | true =>
    obtain ⟨-, -, hderived⟩ := hinv.constants hrun
    obtain ⟨h0, hhalf⟩ := cutoff_of_validate hv hf ha
    exact hderived hf ha ▸ inUnitPos_derivedAlpha h0 hhalf

/-! ### The mixed sample of the three modes -/

/-- What the rest of the frame needs to know of the state `u` in which the mode dispatch leaves `s`. -/
structure Sampled (s u : State) : Prop where
  ctrl : u.ctrl = s.ctrl
  volume : u.volume = s.volume
  alpha : u.alpha = s.alpha
  fstate : u.fstate = s.fstate
  wire : u.dp = u.mixout
  bounded : fMag u.mixout ≤ fMag (float 16)
  loudness : ∀ n, inUnitPos (voiceAt u n).loud = true
  loudnessSum : ctrlMode s.ctrl = 2#2 → fle ZERO u.loudsum = true ∧ fle u.loudsum (float 128) = true

theorem fMag_le_sixteen_of_inUnit {x : F32} (h : inUnit x = true) : fMag x ≤ fMag (float 16) :=
  ((inUnit_iff x).1 h).trans (by decide)

section
variable {s : State} (hinv : s.Inv) (hrun : s.status.run = true) (hclk : s.clockOk)
include hinv hrun hclk

theorem sampled_mixStage (hmode : ctrlMode s.ctrl = 0#2) : Sampled s (mixStage s) := by
  have hfast : fMag (fastPeak s) ≤ fMag (float 16) :=
    fMag_float_mono (List.countP_le_length.trans hinv.slots.2)
  have hsum := (fMag_mixSum_le hinv (hinv.validated hrun) hmode hclk).trans hfast
  have hfin := isFinite_of_fMag_le (isFinite_float (by norm_num)) hsum
  exact ⟨rfl, rfl, rfl, rfl, rfl, (fMag_normalize_le hfin).trans hsum, hinv.loudness,
    fun h => absurd (hmode.symm.trans h) (by decide)⟩

theorem sampled_fmStage (hmode : ctrlMode s.ctrl = 1#2) : Sampled s (fmStage s) := by
  obtain ⟨hsession, -⟩ := oscillatorCallsAreInDomain s
  obtain ⟨-, -, hfm, -⟩ := hsession hinv hrun hclk
  obtain ⟨t, ht, hunit⟩ := hfm hmode
  obtain rfl := Host.Outcome.next.inj ht
  have hbound := fMag_le_sixteen_of_inUnit hunit
  rw [fmStage_frame] at hbound ⊢
  exact ⟨rfl, rfl, rfl, rfl, rfl, hbound, hinv.loudness, fun h => absurd (hmode.symm.trans h) (by decide)⟩

theorem sampled_polyStage (hmode : ctrlMode s.ctrl = 2#2) : Sampled s (polyStage s) := by
  obtain ⟨hunit, hsum⟩ := polyStage_bounds hinv hrun hclk hmode
  have hbound := fMag_le_sixteen_of_inUnit hunit
  rw [polyStage_frame] at hbound hsum ⊢
  exact ⟨rfl, rfl, rfl, rfl, rfl, hbound, drain_loudness hinv, fun _ => hsum⟩

/-- A frame of a session completes: it is the rest of the frame after the sample of its mode. -/
theorem frame_of_session : ∃ u, frame s = .next (finishFrame u) ∧ Sampled s u := by
  have modes : ∀ m : BitVec 2, m ≠ 3#2 → m = 0#2 ∨ m = 1#2 ∨ m = 2#2 := by decide
  obtain hmode | hmode | hmode := modes _ (mode_ne_three_of_validate (hinv.validated hrun))
  · exact ⟨_, frame_eq_next.2 (.inl ⟨hmode, rfl⟩), sampled_mixStage hinv hrun hclk hmode⟩
  · exact ⟨_, frame_eq_next.2 (.inr (.inl ⟨hmode, rfl⟩)), sampled_fmStage hinv hrun hclk hmode⟩
  · exact ⟨_, frame_eq_next.2 (.inr (.inr ⟨hmode, rfl⟩)), sampled_polyStage hinv hrun hclk hmode⟩

end

/-- Settles O48: the sample of each mode is bounded, and volume, filter and clamp keep the bounds. -/
theorem framesWriteNoNaN : Obligations.FramesWriteNoNaN := by
  intro s hinv hrun hclk hf
  have hv := hinv.validated hrun
  obtain ⟨u, ht, hu⟩ := frame_of_session hinv hrun hclk
  obtain ⟨hfstate, hout⟩ := finishFrame_bounds (s := u) (hu.volume ▸ volume_of_validate hv)
    (by rw [hu.ctrl, hu.alpha]; exact alpha_of_session hinv hrun) (hu.fstate ▸ hf) (hu.wire ▸ hu.bounded)
  have hclock := clockOk_frame hclk (clkmod_of_validate hv) ht
  refine ⟨finishFrame u, (frameTick_running hrun).trans ht, ?_, hfstate, hout, hclock, ?_⟩ <;> rw [finishFrame_frame]
  · exact hu.bounded
  · exact ⟨hu.loudnessSum, hu.loudness⟩

end Sys2Proof.Machine
end

section
/-! PROOFS. The filter: its four operations (O43), and that the coefficient 1 passes the input (O44). A product with `1.0` is
the other factor, and the complement of 1 leaves of FSTATE a zero with its sign, which changes no input but `-0.0`. -/

namespace Sys2Proof.Machine

/-! ### The operations (R190 to R192, R194) -/

/-- Settles O43: bypass, update and derivation are their formulas, and the direct coefficient splits on START's check. -/
theorem filterOperations : Obligations.FilterOperations := by
  intro s
  refine ⟨rfl, rfl, rfl, fun hlow hhigh => ?_, fun hout => ?_⟩
  · have hin : inUnitPos s.alpha = true := Bool.and_eq_true_iff.2 ⟨hlow, hhigh⟩
    exact congrArg Host.Outcome.next (if_pos hin)
  · have hnot : ¬ inUnitPos s.alpha = true := fun h => hout (Bool.and_eq_true_iff.1 h)
    exact congrArg Host.Outcome.next (if_neg hnot)

/-! ### Exact products and sums -/

/-- A finite value written over any denominator is not changed by rounding. -/
theorem roundMag_fUnits_mul {x : F32} {d : Nat} (hd : 0 < d) (hx : isFinite x = true) :
    roundMag (fUnits x * d) d = fMag x :=
  le_antisymm (roundMag_le hd hx le_rfl) (le_roundMag hd hx le_rfl)

theorem fmul_one_left {x : F32} (hx : isFinite x = true) : fmul ONE x = x := by
  have hone : isFinite ONE = true := by decide
  have hsign : fSign ONE = false := by decide
  have hunits : fUnits ONE = 2 ^ 149 := by decide
  have hmag : roundMag (fUnits ONE * fUnits x) (2 ^ 149) = fMag x := by
    rw [hunits, Nat.mul_comm, roundMag_fUnits_mul (Nat.two_pow_pos 149) hx]
  simp only [fmul, isNaN_of_finite hone, isNaN_of_finite hx, isInf_of_finite hone, isInf_of_finite hx, Bool.or_self,
    Bool.false_eq_true, if_false, hmag, hsign, Bool.false_bne, packSign_fields]

theorem fmul_zero_left {x : F32} (hx : isFinite x = true) : fmul ZERO x = packSign (fSign x) 0 := by
  have hzero : isFinite ZERO = true := by decide
  have hsign : fSign ZERO = false := by decide
  have hunits : fUnits ZERO = 0 := by decide
  simp only [fmul, isNaN_of_finite hzero, isNaN_of_finite hx, isInf_of_finite hzero, isInf_of_finite hx, Bool.or_self,
    Bool.false_eq_true, if_false, hunits, Nat.zero_mul, roundMag_zero, hsign, Bool.false_bne]

theorem decide_fInt_neg {x : F32} (h0 : fInt x ≠ 0) : decide (fInt x < 0) = fSign x := by
  cases hs : fSign x with
  | false =>
    rw [fInt_of_fSign_eq_false hs]
    exact decide_eq_false (by omega)
  | true =>
    have hint : fInt x = -fUnits x := if_pos hs
    exact decide_eq_true (by omega)

/-- A zero of either sign added to a finite value other than `-0.0` leaves it. -/
theorem fadd_signedZero {x : F32} (hx : isFinite x = true) (hne : x ≠ 0x80000000#32) (neg : Bool) :
    fadd x (packSign neg 0) = x := by
  have hzero : isFinite (packSign neg 0) = true := by cases neg <;> decide
  have hint : fInt (packSign neg 0) = 0 := by cases neg <;> decide
  simp only [fadd, isNaN_of_finite hx, isNaN_of_finite hzero, isInf_of_finite hx, isInf_of_finite hzero, Bool.or_self,
    Bool.false_eq_true, if_false, hint, add_zero, natAbs_fInt, roundMag_fUnits hx]
  split
  · next h0 =>
    have hmag : fMag x = 0 := (fMag_eq_zero_iff hx).1 (by rw [← natAbs_fInt, h0, Int.natAbs_zero])
    have hsign : fSign x = false := Bool.eq_false_iff.2 fun hs => hne (f32_ext hs hmag)
    rw [hsign, Bool.false_and]
    exact f32_ext hsign.symm hmag.symm
  · next h0 =>
    rw [decide_fInt_neg h0, packSign_fields]

/-! ### The coefficient 1 (R197) -/

/-- With the coefficient 1 what is left of FSTATE is its sign, on a zero. -/
theorem filterOutput_one {f x : F32} (hf : isFinite f = true) (hx : isFinite x = true) :
    filterOutput ONE f x = fadd x (packSign (fSign f) 0) := by
  have hcomplement : fsub ONE ONE = ZERO := by decide
  rw [filterOutput, hcomplement, fmul_one_left hx, fmul_zero_left hf]

/-- Settles O44: the input is added to a zero with the sign of FSTATE. -/
theorem unitCoefficientPasses : Obligations.UnitCoefficientPasses := by
  intro s halpha hx hf
  have hout : filterOutput s.alpha s.fstate s.dp = fadd s.dp (packSign (fSign s.fstate) 0) := by
    rw [halpha, filterOutput_one hf hx]
  refine ⟨filterStep s, rfl, fun hne => ?_, fun hneg hsign => ?_⟩
  · have hpass := hout.trans (fadd_signedZero hx hne _)
    exact ⟨hpass, hpass⟩
  · have hzero : filterOutput s.alpha s.fstate s.dp = ZERO := by
      rw [hout, hneg, hsign]
      decide
    exact ⟨hzero, hzero⟩

end Sys2Proof.Machine
end

section
/-! PROOFS. The frame: it is the operations that MODE and FEN select (O23), it writes the registers of its row of R210 and no
other (O24), its clock counts (O25) and its clamp stays in [-1, 1] (O45). -/

namespace Sys2Proof.Machine

/-! ### The clamp (R206) -/

theorem clampUnit_of_fgt {y : F32} (h : fgt y ONE = true) : clampUnit y = ONE := if_pos h

theorem clampUnit_of_flt {y : F32} (h : flt y (fneg ONE) = true) : clampUnit y = fneg ONE := by
  have hhigh : ¬ fgt y ONE = true := fun hgt => by
    have hbelow : fgt (fneg ONE) y = true := h
    obtain ⟨-, -, hlow⟩ := fgt_iff_fKey.1 hbelow
    obtain ⟨-, -, hone⟩ := fgt_iff_fKey.1 hgt
    have hkeys : fKey (fneg ONE) < fKey ONE := by decide
    omega
  rw [clampUnit, if_neg hhigh, if_pos h]

theorem flt_eq_false_of_fle {a b : F32} (h : fle a b = true) : flt b a = false := by
  obtain ⟨-, hkey⟩ := Bool.and_eq_true_iff.1 h
  simp [flt, of_decide_eq_true hkey]

theorem clampUnit_of_inUnit {y : F32} (h : inUnit y = true) : clampUnit y = y := by
  obtain ⟨hlow, hhigh⟩ := Bool.and_eq_true_iff.1 h
  simp [clampUnit, fgt, flt_eq_false_of_fle hlow, flt_eq_false_of_fle hhigh]

/-- Settles O45: the clamp splits on the two comparisons, of which a number in [-1, 1] meets neither. -/
theorem clampRange : Obligations.ClampRange := fun _ hy =>
  ⟨inUnit_clampUnit hy, clampUnit_of_inUnit, clampUnit_of_fgt, clampUnit_of_flt⟩

/-! ### The mode dispatch (R202) -/

section
variable {s u t : State}

theorem modeStage_of_mix (h : ctrlMode s.ctrl = 0#2) : modeStage s = .next (mixStage s) := by simp [modeStage, h]

theorem modeStage_of_fm (h : ctrlMode s.ctrl = 1#2) : modeStage s = .next (fmStage s) := by simp [modeStage, h]

theorem modeStage_of_poly (h : ctrlMode s.ctrl = 2#2) : modeStage s = .next (polyStage s) := by simp [modeStage, h]

theorem modeStage_of_reserved (h : ctrlMode s.ctrl = 3#2) : modeStage s = .fault .reservedModeFrame := by
  simp [modeStage, h]

theorem exists_modeStage (hmode : ctrlMode s.ctrl ≠ 3#2) : ∃ u, modeStage s = .next u := by
  have modes : ∀ m : BitVec 2, m ≠ 3#2 → m = 0#2 ∨ m = 1#2 ∨ m = 2#2 := by decide
  obtain h | h | h := modes _ hmode
  · exact ⟨_, modeStage_of_mix h⟩
  · exact ⟨_, modeStage_of_fm h⟩
  · exact ⟨_, modeStage_of_poly h⟩

theorem modeStage_cases (hu : modeStage s = .next u) :
    (ctrlMode s.ctrl = 0#2 ∧ u = mixStage s) ∨ (ctrlMode s.ctrl = 1#2 ∧ u = fmStage s) ∨
      (ctrlMode s.ctrl = 2#2 ∧ u = polyStage s) := by
  have modes : ∀ m : BitVec 2, m = 0#2 ∨ m = 1#2 ∨ m = 2#2 ∨ m = 3#2 := by decide
  obtain h | h | h | h := modes (ctrlMode s.ctrl)
  · exact .inl ⟨h, Host.Outcome.next.inj (hu.symm.trans (modeStage_of_mix h))⟩
  · exact .inr (.inl ⟨h, Host.Outcome.next.inj (hu.symm.trans (modeStage_of_fm h))⟩)
  · exact .inr (.inr ⟨h, Host.Outcome.next.inj (hu.symm.trans (modeStage_of_poly h))⟩)
  · exact absurd (hu.symm.trans (modeStage_of_reserved h)) (by simp)

/-- The dispatch runs the operation that MODE decodes to (30_encoding.md R98). -/
theorem exec_decodeMode (hu : modeStage s = .next u) : exec (decodeMode (ctrlMode s.ctrl)) s = .next u := by
  obtain ⟨h, rfl⟩ | ⟨h, rfl⟩ | ⟨h, rfl⟩ := modeStage_cases hu <;> rw [h] <;> rfl

/-- The sample of a frame writes the FIFO, the voice table, LOUDSUM, CLK, DEGCNT, STATUS.DEGEN, MIXOUT and the datapath. -/
theorem modeStage_frame (hu : modeStage s = .next u) :
    u =
      { s with
        fifo := [], voice := u.voice, loudsum := u.loudsum, clk := u.clk, degcnt := u.degcnt
        status := { s.status with degen := u.status.degen }, mixout := u.mixout, dp := u.mixout } := by
  obtain ⟨-, rfl⟩ | ⟨-, rfl⟩ | ⟨-, rfl⟩ := modeStage_cases hu
  · rfl
  · rw [fmStage_frame]
  · rw [polyStage_frame]

theorem frame_of_modeStage (hu : modeStage s = .next u) : frame s = .next (finishFrame u) := by rw [frame, hu, andThen_next]

/-! ### What follows the mixed sample (R204 to R209) -/

/-- The filter stage runs the operation that FEN decodes to (30_encoding.md R92). -/
theorem exec_decodeFilter (s : State) : exec (decodeFilter (ctrlFen s.ctrl)) s = .next (filterStage s) := by
  unfold filterStage
  cases ctrlFen s.ctrl <;> rfl

/-- A frame does not advance the clock in POLY mode without a voice (R207). -/
theorem noAdvance_iff (s : State) :
    noAdvance s = true ↔ ctrlMode s.ctrl = 2#2 ∧ ∀ n, (voiceAt s n).active = false := by
  rw [noAdvance, Bool.and_eq_true, decide_eq_true_eq, decide_eq_true_eq, nvoice_eq_zero_iff]

theorem noAdvance_of_mode (h : ctrlMode s.ctrl ≠ 2#2) : noAdvance s = false := by simp [noAdvance, h]

/-- The rest of the frame after volume and filter: clamp, clock advance, frame count and output port. -/
theorem finishFrame_eq (s : State) :
    finishFrame s =
      { filterStage (volumeStage s) with
        out := clampUnit (filterStage (volumeStage s)).dp
        clk := if noAdvance s then s.clk else advance s.clkmod s.clk
        framecnt := s.framecnt + 1#32, outValid := true } := by
  have hstay : noAdvance (clampStage (filterStage (volumeStage s))) = noAdvance s := noAdvance_filterStage (volumeStage s)
  unfold finishFrame countStage clockStage
  rw [hstay]
  unfold filterStage
  split <;> split <;> rfl

/-! ### The whole frame (R201) -/

/-- A frame is the rest of the frame after the sample of its mode. -/
theorem exists_sample_of_frame (ht : frame s = .next t) : ∃ u, modeStage s = .next u ∧ t = finishFrame u := by
  obtain ⟨u, hu, hfinish⟩ := andThen_eq_next.1 ht
  exact ⟨u, hu, (Host.Outcome.next.inj hfinish).symm⟩

/-- Settles O23: both requests are the frame tick, and a frame is the mode dispatch, the filter stage and what follows. -/
theorem frameRunsSelectedOperations : Obligations.FrameRunsSelectedOperations := by
  intro s
  refine ⟨fun hstop => ⟨frameTick_stopped hstop, frameTick_stopped hstop⟩, fun hrun hmode => ?_⟩
  obtain ⟨u, hu⟩ := exists_modeStage hmode
  obtain ⟨hctrl, hclkmod, hframecnt⟩ : u.ctrl = s.ctrl ∧ u.clkmod = s.clkmod ∧ u.framecnt = s.framecnt := by
    rw [modeStage_frame hu]
    exact ⟨rfl, rfl, rfl⟩
  have hvolume : volumeStage u = { u with dp := fmul u.mixout s.volume } := by
    rw [modeStage_frame hu]
    rfl
  have htick : frameTick s = .next (finishFrame u) := (frameTick_running hrun).trans (frame_of_modeStage hu)
  refine ⟨u, filterStage (volumeStage u), finishFrame u, exec_decodeMode hu, ?_, htick, htick, ?_⟩
  · rw [← hvolume, ← hctrl]
    exact exec_decodeFilter (volumeStage u)
  · rw [finishFrame_eq, hclkmod, hframecnt, if_congr (noAdvance_iff u) rfl rfl, hctrl]
    rfl

/-! ### What a frame writes (R210) -/

theorem frame_frame (ht : frame s = .next t) :
    t =
      { s with
        status := { s.status with degen := t.status.degen }, clk := t.clk, fstate := t.fstate, degcnt := t.degcnt
        framecnt := s.framecnt + 1#32, mixout := t.mixout, out := t.out, loudsum := t.loudsum, voice := t.voice, fifo := []
        dp := t.dp, outValid := true } := by
  obtain ⟨u, hu, rfl⟩ := exists_sample_of_frame ht
  rw [finishFrame_frame, modeStage_frame hu]

/-- A frame never clears DEGEN (R24). -/
theorem degen_frame (ht : frame s = .next t) (h : s.status.degen = true) : t.status.degen = true := by
  obtain hs | hs := status_frame ht <;> rw [hs]
  · exact h
  · rfl

/-- Only an FM frame counts and records degeneracies (R162). -/
theorem degeneracy_frame (ht : frame s = .next t) (hmode : ctrlMode s.ctrl ≠ 1#2) :
    t.degcnt = s.degcnt ∧ t.status = s.status := by
  obtain ⟨-, rfl⟩ | ⟨hfm, -⟩ | ⟨-, rfl⟩ := frame_eq_next.1 ht
  · rw [finishFrame_frame]
    exact ⟨rfl, rfl⟩
  · exact absurd hfm hmode
  · rw [finishFrame_frame, polyStage_frame]
    exact ⟨rfl, rfl⟩

/-- Outside POLY mode the voice table and LOUDSUM stay (44_poly_mixer.md R185). -/
theorem voices_frame (ht : frame s = .next t) (hmode : ctrlMode s.ctrl ≠ 2#2) :
    t.voice = s.voice ∧ t.loudsum = s.loudsum := by
  obtain ⟨-, rfl⟩ | ⟨-, rfl⟩ | ⟨hpoly, -⟩ := frame_eq_next.1 ht
  · rw [finishFrame_frame]
    exact ⟨rfl, rfl⟩
  · rw [finishFrame_frame, fmStage_frame]
    exact ⟨rfl, rfl⟩
  · exact absurd hpoly hmode

theorem voice_frame_poly (ht : frame s = .next t) (hmode : ctrlMode s.ctrl = 2#2) : t.voice = (drain s).voice := by
  obtain rfl := Host.Outcome.next.inj (ht.symm.trans (frame_of_modeStage (modeStage_of_poly hmode)))
  rw [finishFrame_frame, polyStage_frame]

/-- With FEN = 0 the filter state stays (45_lowpass_filter.md R192). -/
theorem fstate_frame (ht : frame s = .next t) (hfen : ctrlFen s.ctrl = false) : t.fstate = s.fstate := by
  obtain ⟨u, hu, rfl⟩ := exists_sample_of_frame ht
  have hbypass : filterStage (volumeStage u) = volumeStage u := by
    rw [modeStage_frame hu]
    exact if_neg (ne_true_of_eq_false hfen)
  obtain ⟨hfstate, -⟩ := finishFrame_results u
  rw [hfstate, hbypass, modeStage_frame hu]
  rfl

/-- Settles O24: the record of what a frame writes, and the clauses on MODE and FEN. -/
theorem frameWritesOnlyItsRegisters : Obligations.FrameWritesOnlyItsRegisters := by
  intro s t hrun hexec
  have ht : frame s = .next t := (frameTick_running hrun).symm.trans hexec
  have h := frame_frame ht
  exact ⟨(congrArg State.par h :), (congrArg State.rst h :), (congrArg State.ctrl h :), (congrArg State.errcode h :),
    (congrArg State.srate h :), (congrArg State.clkmod h :), (congrArg State.volume h :), (congrArg State.cutoff h :),
    (congrArg State.alpha h :), (congrArg State.peak h :), (congrArg State.cperiod h :), (congrArg State.osc h :),
    (congrArg State.rdata h :), (congrArg State.pending h :), congrArg State.fifo h, congrArg State.framecnt h,
    congrArg State.outValid h, congrArg State.status h, degen_frame ht, degeneracy_frame ht, voices_frame ht,
    voice_frame_poly ht, fstate_frame ht⟩

/-! ### The clock (R207, R208) -/

theorem clk_finishFrame_of_advance (h : noAdvance s = false) : (finishFrame s).clk = advance s.clkmod s.clk := by
  rw [finishFrame_eq]
  exact if_neg (ne_true_of_eq_false h)

/-- Without a modulus the clock stays at 2^24, since 2^24 + 1 rounds down (R208). -/
theorem advance_free {k : Nat} (hk : k ≤ 2 ^ 24) : advance 0#32 (float k) = float (min (k + 1) (2 ^ 24)) := by
  rw [advance, if_pos rfl, fadd_float_one hk]
  obtain hlt | rfl := hk.lt_or_eq
  · rw [min_eq_left hlt]
  · exact float_two_pow_24_succ

theorem advance_modulus {m : Word} {k : Nat} (hm : m.toNat ≤ 2 ^ 24) (hk : k < m.toNat) :
    advance m (float k) = float ((k + 1) % m.toNat) := by
  have hne : m ≠ 0#32 := by
    rintro rfl
    simp at hk
  rw [advance, if_neg hne, fadd_float_one (hk.le.trans hm), fmodx_float (hk.trans_le hm) hm (Nat.ne_zero_of_lt hk)]

theorem nvoice_polyStage (s : State) : nvoice (polyStage s) = nvoice (drain s) := by
  rw [nvoice, polyStage_frame]
  rfl

/-- The frames that advance the clock: their sample leaves it, and the end of the frame advances it. -/
theorem exists_advancing_sample
    (h : ctrlMode s.ctrl = 0#2 ∨ ctrlMode s.ctrl = 1#2 ∨
      (ctrlMode s.ctrl = 2#2 ∧ ∃ n, (voiceAt (drain s) n).active = true)) :
    ∃ u, modeStage s = .next u ∧ u.clk = s.clk ∧ noAdvance u = false := by
  obtain hmix | hfm | ⟨hpoly, n, hn⟩ := h
  · exact ⟨mixStage s, modeStage_of_mix hmix, rfl, noAdvance_of_mode (by rw [mixStage_frame, hmix]; decide)⟩
  · refine ⟨fmStage s, modeStage_of_fm hfm, ?_, noAdvance_of_mode ?_⟩ <;> rw [fmStage_frame]
    rw [hfm]
    decide
  · have hvoices : nvoice (drain s) ≠ 0 := fun h0 => by simp [(nvoice_eq_zero_iff (drain s)).1 h0 n] at hn
    refine ⟨polyStage s, modeStage_of_poly hpoly, ?_, ?_⟩
    · rw [polyStage_of_voices hvoices]
    · simp [noAdvance, nvoice_polyStage, hvoices]

/-- Settles O25: the sample leaves the clock and the end of the frame advances it, or the POLY frame has no voice. -/
theorem clockCounts : Obligations.ClockCounts := by
  intro s hrun
  have hframe : ∀ {u}, modeStage s = .next u → exec .frame s = .next (finishFrame u) := fun hu =>
    (frameTick_running hrun).trans (frame_of_modeStage hu)
  refine ⟨fun k hk hadvance => ?_, fun hpoly hsilent => ?_⟩
  · obtain ⟨u, hu, hclk, hstep⟩ := exists_advancing_sample hadvance
    have hclkmod : u.clkmod = s.clkmod := by rw [modeStage_frame hu]
    have hnext : (finishFrame u).clk = advance s.clkmod (float k) := by
      rw [clk_finishFrame_of_advance hstep, hclkmod, hclk, hk]
    exact ⟨fun hfree hle => ⟨_, hframe hu, by rw [hnext, hfree, advance_free hle]⟩,
      fun _ hmod hlt => ⟨_, hframe hu, hnext.trans (advance_modulus hmod hlt)⟩⟩
  · have hn : nvoice (polyStage s) = 0 := (nvoice_polyStage s).trans ((nvoice_eq_zero_iff (drain s)).2 hsilent)
    have hmode : ctrlMode (polyStage s).ctrl = 2#2 := by rw [polyStage_frame]; exact hpoly
    exact ⟨_, hframe (modeStage_of_poly hpoly), (clk_finishFrame hmode hn).trans (clk_polyStage hn)⟩

end

end Sys2Proof.Machine
end

section
/-! PROOFS. Where a step stops: every operation that a request can be answers a next state but the frame, and the frame stops
in mode 3 alone (O52), which no session of the invariant has (O51). -/

namespace Sys2Proof.Machine

/-! ### The frame tick -/

section
variable {s : State}

theorem frameTick_of_reserved (hrun : s.status.run = true) (hmode : ctrlMode s.ctrl = 3#2) :
    frameTick s = .fault .reservedModeFrame := by
  rw [frameTick_running hrun, frame, modeStage_of_reserved hmode, andThen_fault]

theorem frameTick_answers (h : s.status.run = true → ctrlMode s.ctrl ≠ 3#2) : ∃ t, frameTick s = .next t := by
  cases hrun : s.status.run with
  | false => exact ⟨s, frameTick_stopped hrun⟩
  | true =>
    obtain ⟨u, hu⟩ := exists_modeStage (h hrun)
    exact ⟨finishFrame u, (frameTick_running hrun).trans (frame_of_modeStage hu)⟩

/-! ### Requests -/

/-- The requests for a frame: the tick port, and TICK on CMD (R200, 47_commands.md R225). -/
def FrameRequest (i : Input) : Prop := i = .tick ∨ ∃ w, i = .write 0x010#12 2#2 w ∧ decodeCmd w = .tick

theorem perform_frameRequest {i : Input} (hrst : s.rst = false) (hi : FrameRequest i) : perform i s = frameTick s := by
  obtain rfl | ⟨w, rfl, hw⟩ := hi
  · exact perform_requestInstr (op := .frame) hrst rfl
  · have hop : requestInstr (.write 0x010#12 2#2 w) = some .tick := congrArg some hw
    exact perform_requestInstr hrst hop

theorem exec_decodeCmd_answers {w : Word} (hw : decodeCmd w ≠ .tick) (s : State) : ∃ t, exec (decodeCmd w) s = .next t := by
  obtain h | h | h | h | h | h | h := decodeCmd_cases w
  case inr.inr.inl => exact absurd h hw
  all_goals
    rw [h]
    exact ⟨_, rfl⟩

theorem eq_tick_of_requestInstr {i : Input} (h : requestInstr i = some .frame) : i = .tick := by
  cases i with
  | tick => rfl
  | write o z w =>
    have hcmd : decodeCmd w ≠ .frame := by unfold decodeCmd; split <;> simp
    simp only [requestInstr] at h
    split at h
    · exact absurd (Option.some.inj h) hcmd
    · split at h <;> simp at h
  | evtPush | read | rst => simp [requestInstr] at h

/-- Every request but one for a frame answers a next state. -/
theorem perform_answers {i : Input} (h : s.rst = false → ¬ FrameRequest i) : ∃ t, perform i s = .next t := by
  obtain ⟨l, -, he⟩ | ⟨-, he⟩ | ⟨hrst, op, hop, he⟩ | ⟨-, -, he⟩ := perform_cases i s
  · exact ⟨_, he⟩
  · exact ⟨_, he⟩
  · rw [he]
    obtain rfl | ⟨w, rfl⟩ | ⟨w, rfl, rfl⟩ := requestInstr_cases hop
    · exact absurd (.inl (eq_tick_of_requestInstr hop)) (h hrst)
    · exact ⟨_, rfl⟩
    · exact exec_decodeCmd_answers (fun hw => h hrst (.inr ⟨w, rfl, hw⟩)) s
  · exact ⟨_, he⟩

/-! ### The step -/

/-- The oldest request is one for a frame, which a running session in mode 3 would perform. -/
def State.ReservedFrameNext (s : State) : Prop :=
  s.status.run = true ∧ ctrlMode s.ctrl = 3#2 ∧ s.rst = false ∧ ∃ i rest, s.pending = i :: rest ∧ FrameRequest i

/-- The two forms of the request written out. -/
theorem reservedFrameNext_iff :
    s.ReservedFrameNext ↔
      s.status.run = true ∧ ctrlMode s.ctrl = 3#2 ∧ s.rst = false ∧
        ∃ rest, s.pending = .tick :: rest ∨ ∃ w, s.pending = .write 0x010#12 2#2 w :: rest ∧ decodeCmd w = .tick := by
  constructor
  · rintro ⟨hrun, hmode, hrst, i, rest, hp, rfl | ⟨w, rfl, hw⟩⟩
    · exact ⟨hrun, hmode, hrst, rest, .inl hp⟩
    · exact ⟨hrun, hmode, hrst, rest, .inr ⟨w, hp, hw⟩⟩
  · rintro ⟨hrun, hmode, hrst, rest, hp | ⟨w, hp, hw⟩⟩
    · exact ⟨hrun, hmode, hrst, _, rest, hp, .inl rfl⟩
    · exact ⟨hrun, hmode, hrst, _, rest, hp, .inr ⟨w, rfl, hw⟩⟩

theorem step_of_reservedFrameNext (h : s.ReservedFrameNext) : step s = .fault .reservedModeFrame := by
  obtain ⟨hrun, hmode, hrst, i, rest, hp, hi⟩ := h
  exact ((step_of_pending hp).trans (perform_frameRequest (s := takeRequest rest s) hrst hi)).trans
    (frameTick_of_reserved (s := takeRequest rest s) hrun hmode)

theorem answers_of_not_reservedFrameNext (h : ¬ s.ReservedFrameNext) : s.answers := by
  obtain ⟨-, he⟩ | ⟨i, rest, hp, he⟩ := step_cases s
  · exact ⟨_, he⟩
  · rw [State.answers, he]
    by_cases hi : s.rst = false ∧ FrameRequest i
    · obtain ⟨hrst, hreq⟩ := hi
      rw [perform_frameRequest (s := takeRequest rest s) hrst hreq]
      exact frameTick_answers fun hrun hmode => h ⟨hrun, hmode, hrst, i, rest, hp, hreq⟩
    · exact perform_answers fun hrst hreq => hi ⟨hrst, hreq⟩

end

/-- Settles O51: a running session has passed START's check of MODE. -/
theorem stepAlwaysAnswers : Obligations.StepAlwaysAnswers := fun _ hinv =>
  answers_of_not_reservedFrameNext fun ⟨hrun, hmode, _⟩ => mode_ne_three_of_validate (hinv.validated hrun) hmode

/-- Settles O52: the step either stops with the one fault or answers, by whether a frame in mode 3 is next. -/
theorem onlyReservedModeStops : Obligations.OnlyReservedModeStops := by
  intro s
  by_cases h : s.ReservedFrameNext
  · have hstop := step_of_reservedFrameNext h
    refine ⟨fun e he => by simp [hstop] at he, fun e => ⟨fun he => ?_, fun ⟨he, _⟩ => he ▸ hstop⟩⟩
    exact ⟨(Host.Outcome.fault.inj (hstop.symm.trans he)).symm, reservedFrameNext_iff.1 h⟩
  · obtain ⟨t, ht⟩ := answers_of_not_reservedFrameNext h
    exact ⟨fun e he => by simp [ht] at he,
      fun e => iff_of_false (fun he => by simp [ht] at he) fun ⟨_, hnext⟩ => h (reservedFrameNext_iff.2 hnext)⟩

end Sys2Proof.Machine
end

section
/-! PROOFS. The commands: what START writes (O17) and how it refuses (O16), the table of SOFTRESET (O14), and the commands that
write one register (O21). -/

namespace Sys2Proof.Machine

/-! ### The successful START (R223) -/

section
variable (s : State)

theorem alphaStage_eq :
    alphaStage s =
      { s with
        alpha :=
          if ctrlFen s.ctrl = true ∧ ctrlAcalc s.ctrl = true then derivedAlpha s.cutoff (sampleRate s) else s.alpha } := by
  simp only [alphaStage, Bool.and_eq_true]
  split <;> rfl

theorem constantsStage_eq :
    constantsStage s =
      { s with
        cperiod := if ctrlMode s.ctrl = 0#2 then BitVec.ofNat 32 (combinedPeriod s) else 0#32
        peak :=
          if ctrlMode s.ctrl = 0#2 then
            (if ctrlPstrat s.ctrl then exactPeak { s with cperiod := BitVec.ofNat 32 (combinedPeriod s) } else fastPeak s)
          else ZERO } := by
  rw [constantsStage]
  split <;> rfl

end

/-- The exact search reads the slots, the rate, CPERIOD and the sine unit (R151, R152). -/
theorem exactPeak_congr {s t : State} (hpar : t.par = s.par) (hosc : t.osc = s.osc) (hsrate : t.srate = s.srate)
    (hperiod : t.cperiod = s.cperiod) : exactPeak t = exactPeak s := by
  have hmix : mixSum t = mixSum s := by
    funext pos
    simp only [mixSum, slotValue, sampleRate, hpar, hosc, hsrate]
  have hstep : peakStep t = peakStep s := by
    funext pk k
    simp only [peakStep, hmix]
  rw [exactPeak, exactPeak, hstep, hperiod]

/-- Settles O17: the stages of START one after another. What the first two write, the exact search does not read. -/
theorem successfulStart : Obligations.SuccessfulStart := by
  intro s hrun hv
  have hpeak (a : F32) :
      exactPeak { clearSession s with alpha := a, cperiod := BitVec.ofNat 32 (combinedPeriod s) } =
        exactPeak { s with cperiod := BitVec.ofNat 32 (combinedPeriod s) } := exactPeak_congr rfl rfl rfl rfl
  rw [exec_start_of_validate hrun hv, startSession, alphaStage_eq, constantsStage_eq, ← hpeak]
  rfl

/-! ### START refused (R221, R222) -/

/-- ERRCODE is `{slot, code}`, zero-extended (R25). -/
theorem zero_append_slot_append_code (slot code : BitVec 8) :
    (0x0000#16 ++ slot ++ code : BitVec 32) = (slot ++ code).setWidth 32 :=
  BitVec.append_assoc.trans (BitVec.setWidth_eq_append (by decide)).symm

/-- Settles O16: the two refusals are START's first two outcomes. -/
theorem startRefusals : Obligations.StartRefusals := by
  intro s code slot
  constructor
  · intro hrun
    have hop : startOp s = raise .cmderr s := if_pos hrun
    exact congrArg Host.Outcome.next hop
  · intro hrun hv
    have hop : startOp s = startFailed code slot s := by simp [startOp, hrun, hv]
    rw [zero_append_slot_append_code]
    exact congrArg Host.Outcome.next hop

/-! ### An empty FIFO (R24) -/

section
variable {s : State} (hfifo : s.fifo = [])
include hfifo

theorem evqe_of_empty : evqe s = true := by rw [evqe, hfifo]; rfl

theorem evqf_of_empty (hdepth : 1 ≤ s.par.evqDepth) : evqf s = false := by
  rw [evqf, hfifo]
  exact decide_eq_false (Nat.ne_of_lt hdepth)

/-- At rest STATUS shows the empty FIFO alone (R280). -/
theorem statusWord_of_rest (hdepth : 1 ≤ s.par.evqDepth) (hstatus : s.status = {}) : statusWord s = 0x00000002#32 := by
  rw [statusWord, evqe_of_empty hfifo, evqf_of_empty hfifo hdepth, hstatus]
  rfl

end

/-! ### SOFTRESET and the commands that write one register -/

/-- PARAMS is of the parameters and N_OSC, which reset keeps (R44, R284). -/
theorem paramsWord_resetAll (level : Bool) (s : State) : paramsWord (resetAll level s) = paramsWord s := by
  simp [paramsWord, resetAll, State.resetWith]

/-- Settles O14: SOFTRESET answers the reset state, whose fields are the table. -/
theorem softresetGivesTheTable : Obligations.SoftresetGivesTheTable := fun s =>
  ⟨resetAll s.rst s, rfl, rfl, rfl, rfl, rfl, rfl, rfl, rfl, rfl, rfl, rfl, rfl, rfl, rfl, rfl, rfl, rfl, rfl, rfl, rfl, rfl,
    rfl, fun hdepth => statusWord_of_rest (s := resetAll s.rst s) rfl hdepth rfl, rfl, paramsWord_resetAll s.rst s⟩

/-- Settles O21: the records by definition, the views of the empty FIFO, and the reserved words by their fields. -/
theorem plainCommands : Obligations.PlainCommands := fun s _ =>
  ⟨rfl, rfl,
    fun hdepth => ⟨evqe_of_empty (s := clearFifo s) rfl, evqf_of_empty (s := clearFifo s) rfl hdepth⟩,
    rfl, rfl, fun hfields => decodeCmd_eq_cmdReserved_iff.2 (isReservedCmd_iff.2 hfields)⟩

end Sys2Proof.Machine
end

section
/-! PROOFS. The input `rst` (O13), and what no step changes (O54): the parameters, the number of slots and, but for the
oldest, the requests to come. `Effect` leaves the written slots open, so each operation has a lemma on `SameBlock` here. -/

namespace Sys2Proof.Machine

/-! ### The line `rst` (R281) -/

section
variable {s t : State}

theorem perform_held (hrst : s.rst = true) {i : Input} (hi : ∀ l, i ≠ .rst l) : perform i s = .next (heldInReset i s) := by
  cases i with
  | rst l => exact absurd rfl (hi l)
  | _ => exact if_pos hrst

/-- Settles O13: a change of the line is performed at either level, any other request is held. -/
theorem resetLineHolds : Obligations.ResetLineHolds := by
  intro s i rest hp
  rw [step_of_pending hp]
  refine ⟨?_, fun hrst hi => ?_, ?_⟩
  · rintro rfl
    rfl
  · rw [perform_held (s := takeRequest rest s) hrst hi]
    cases i <;> rfl
  · rintro rfl
    rfl

/-! ### What is fixed (R284) -/

/-- The parameters, the number of slots and the requests to come are the same in both states. -/
def SameBlock (s t : State) : Prop := t.par = s.par ∧ t.osc.length = s.osc.length ∧ t.pending = s.pending

theorem sameBlock_refl (s : State) : SameBlock s s := ⟨rfl, rfl, rfl⟩

theorem sameBlock_resetAll (level : Bool) (s : State) : SameBlock s (resetAll level s) := ⟨rfl, List.length_replicate, rfl⟩

theorem sameBlock_setRst (level : Bool) (s : State) : SameBlock s (setRst level s) := by
  cases level with
  | true => exact sameBlock_resetAll true s
  | false => exact sameBlock_refl s

theorem sameBlock_heldInReset (i : Input) (s : State) : SameBlock s (heldInReset i s) := by
  cases i <;> exact sameBlock_refl s

/-! ### Operations -/

theorem sameBlock_frameTick (ht : frameTick s = .next t) : SameBlock s t := by
  cases hrun : s.status.run with
  | true =>
    rw [frame_frame ((frameTick_running hrun).symm.trans ht)]
    exact sameBlock_refl s
  | false => exact Host.Outcome.next.inj ((frameTick_stopped hrun).symm.trans ht) ▸ sameBlock_refl s

theorem sameBlock_pushWord (w : Word) (s : State) : SameBlock s (pushWord w s) := by
  obtain he | ⟨-, he⟩ | ⟨-, e, he⟩ := pushWord_cases w s <;> rw [he] <;> exact sameBlock_refl s

theorem sameBlock_startOp (s : State) : SameBlock s (startOp s) := by
  obtain ⟨-, he⟩ | ⟨-, e, -, he⟩ | ⟨-, -, he⟩ := startOp_cases s <;> rw [he]
  · exact sameBlock_refl s
  · exact sameBlock_refl s
  · rw [startSession_frame]
    exact sameBlock_refl s

theorem sameBlock_decodeCmd {w : Word} (ht : exec (decodeCmd w) s = .next t) : SameBlock s t := by
  obtain hw | hw | hw | hw | hw | hw | hw := decodeCmd_cases w <;> rw [hw] at ht
  · exact Host.Outcome.next.inj ht ▸ sameBlock_startOp s
  · exact Host.Outcome.next.inj ht ▸ sameBlock_refl s
  · exact sameBlock_frameTick ht
  · exact Host.Outcome.next.inj ht ▸ sameBlock_refl s
  · exact Host.Outcome.next.inj ht ▸ sameBlock_refl s
  · exact Host.Outcome.next.inj ht ▸ sameBlock_resetAll s.rst s
  · exact Host.Outcome.next.inj ht ▸ sameBlock_refl s

theorem sameBlock_requestInstr {i : Input} {op : Instr} (hop : requestInstr i = some op) (ht : exec op s = .next t) :
    SameBlock s t := by
  obtain rfl | ⟨w, rfl⟩ | ⟨w, rfl, -⟩ := requestInstr_cases hop
  · exact sameBlock_frameTick ht
  · exact Host.Outcome.next.inj ht ▸ sameBlock_pushWord w s
  · exact sameBlock_decodeCmd ht

/-! ### Plain accesses -/

theorem sameBlock_storeReg (r : Reg) (w : Word) (s : State) : SameBlock s (storeReg r w s) := by
  cases hl : r.locked with
  | true =>
    obtain ⟨hframe, hlen⟩ := storeReg_of_locked hl w s
    exact ⟨(congrArg State.par hframe :), hlen, (congrArg State.pending hframe :)⟩
  | false => obtain he | he := storeReg_of_not_locked hl w s <;> rw [he] <;> exact sameBlock_refl s

theorem sameBlock_busWrite (o : BitVec 12) (z : BitVec 2) (w : Word) (s : State) : SameBlock s (busWrite o z w s) := by
  cases hreg : regOf s o z with
  | none =>
    rw [busWrite_of_regOf_eq_none hreg]
    exact sameBlock_refl s
  | some r =>
    rw [busWrite_of_regOf hreg]
    obtain ⟨-, he⟩ | ⟨-, -, he⟩ | ⟨-, -, he⟩ := writeReg_cases r w s <;> rw [he]
    · exact sameBlock_refl s
    · exact sameBlock_refl s
    · exact sameBlock_storeReg r w s

theorem sameBlock_busRead (o : BitVec 12) (z : BitVec 2) (s : State) : SameBlock s (busRead o z s) := by
  cases hreg : regOf s o z with
  | none =>
    rw [busRead_of_regOf_eq_none hreg]
    exact sameBlock_refl s
  | some r =>
    rw [busRead_of_regOf hreg]
    exact sameBlock_refl s

theorem sameBlock_plainAccess (i : Input) (s : State) : SameBlock s (plainAccess i s) := by
  cases i with
  | read o z => exact sameBlock_busRead o z s
  | write o z w => exact sameBlock_busWrite o z w s
  | _ => exact sameBlock_refl s

/-! ### The step -/

theorem sameBlock_perform {i : Input} (ht : perform i s = .next t) : SameBlock s t := by
  obtain ⟨l, rfl, he⟩ | ⟨-, he⟩ | ⟨-, op, hop, he⟩ | ⟨-, -, he⟩ := perform_cases i s <;> rw [he] at ht
  · exact Host.Outcome.next.inj ht ▸ sameBlock_setRst l s
  · exact Host.Outcome.next.inj ht ▸ sameBlock_heldInReset i s
  · exact sameBlock_requestInstr hop ht
  · exact Host.Outcome.next.inj ht ▸ sameBlock_plainAccess i s

end

/-- Settles O54: a step takes the oldest request, if there is one, and performing it changes none of the three. -/
theorem parametersAreFixed : Obligations.ParametersAreFixed := by
  intro s t ht
  obtain ⟨hp, he⟩ | ⟨i, rest, hp, he⟩ := step_cases s <;> rw [he] at ht <;> rw [hp]
  · exact Host.Outcome.next.inj ht ▸ ⟨rfl, rfl, hp⟩
  · exact sameBlock_perform ht

end Sys2Proof.Machine
end

section
/-! PROOFS. The session that reset prepares (O15): no slot takes part, so START finds CPERIOD = 1 and PEAK = `+0.0`, and each
frame adds up and passes on nothing but `+0.0`. -/

namespace Sys2Proof.Machine

/-! ### Silent slots (R126, R141) -/

section
variable {s : State} (hsilent : ∀ o ∈ s.osc, o.kind = 0#3)
include hsilent

theorem takesPart_of_silent : ∀ o ∈ s.osc, takesPart o = false := fun o ho => by
  rw [takesPart, hsilent o ho]
  rfl

theorem combinedPeriod_of_silent : combinedPeriod s = 1 :=
  List.foldlRecOn (motive := (· = 1)) s.osc (periodStep s) rfl fun _ hp o ho => by
    rw [periodStep, takesPart_of_silent hsilent o ho]
    exact hp

theorem fastPeak_of_silent : fastPeak s = ZERO := by
  have hcount : s.osc.countP takesPart = 0 :=
    List.countP_eq_zero.2 fun o ho => ne_true_of_eq_false (takesPart_of_silent hsilent o ho)
  rw [fastPeak, hcount]
  decide

theorem mixSum_of_silent (pos : F32) : mixSum s pos = ZERO :=
  List.foldlRecOn (motive := (· = ZERO)) s.osc _ rfl fun acc hacc o ho => by
    rw [hacc, slotValue, hsilent o ho]
    show fadd ZERO ZERO = ZERO
    decide

end

/-! ### START after reset (R282) -/

section
variable (p : Params) (nOsc : Nat)

theorem silent_resetWith : ∀ o ∈ (State.resetWith p nOsc false []).osc, o.kind = 0#3 := fun _ ho =>
  congrArg OscSlot.kind (List.eq_of_mem_replicate ho)

theorem validate_resetWith : validate (State.resetWith p nOsc false []) = none := by
  have hsilent := silent_resetWith p nOsc
  have hfen : ctrlFen (State.resetWith p nOsc false []).ctrl = false := (by decide : ctrlFen 0x00#8 = false)
  have hvolume : (!inUnitPos 0x3F800000#32) = false := by decide
  refine (validate_eq_none_iff _).2
    ⟨rfl, rfl, rfl, ?kind, ?freq, rfl, ?cutoff, ?alpha, (plainCheck_eq_none_iff ..).2 hvolume⟩
  case kind => exact (slotCheck_eq_none_iff ..).2 fun o ho => by rw [hsilent o ho]; rfl
  case freq => exact (slotCheck_eq_none_iff ..).2 fun o ho => by rw [takesPart_of_silent hsilent o ho]; rfl
  case cutoff | alpha => simp [checkCutoff, checkAlpha, plainCheck_eq_none_iff, hfen]

/-- START succeeds with the constants of a block in which no slot takes part. -/
theorem start_resetWith :
    ∃ t, exec .start (State.resetWith p nOsc false []) = .next t ∧ t.status.run = true ∧ t.cperiod = 1#32 ∧
      t.peak = ZERO ∧ t.clk = float 0 := by
  have hsilent := silent_resetWith p nOsc
  have hmix : ctrlMode (State.resetWith p nOsc false []).ctrl = 0#2 := rfl
  have hfast : ctrlPstrat (State.resetWith p nOsc false []).ctrl ≠ true := (by decide : ctrlPstrat 0x00#8 ≠ true)
  have hclk : float 0 = 0x00000000#32 := by decide
  refine ⟨_, successfulStart _ rfl (validate_resetWith p nOsc), rfl, ?_, ?_, hclk.symm⟩
  · simp only [if_pos hmix, combinedPeriod_of_silent hsilent]
  · simp only [if_pos hmix, if_neg hfast, fastPeak_of_silent hsilent]

end

/-! ### The frames of that session -/

theorem filterStage_of_bypass {s : State} (hfen : ctrlFen s.ctrl = false) : filterStage s = s :=
  if_neg (ne_true_of_eq_false hfen)

/-- The sample `+0.0` at VOLUME 1.0, without a filter, gives OUT = `+0.0` (R204 to R206). -/
theorem out_finishFrame_of_silence {s : State} (hdp : s.dp = ZERO) (hvolume : s.volume = 0x3F800000#32)
    (hfen : ctrlFen s.ctrl = false) : (finishFrame s).out = ZERO := by
  obtain ⟨-, hout⟩ := finishFrame_results s
  rw [hout, filterStage_of_bypass (s := volumeStage s) hfen]
  show clampUnit (fmul s.dp s.volume) = ZERO
  rw [hdp, hvolume]
  decide

/-- Settles O15: the frames add up silent slots, and nothing after the sum makes a sound. -/
theorem resetConfigurationStarts : Obligations.ResetConfigurationStarts := by
  intro p nOsc
  refine ⟨frameTick_stopped (s := State.resetWith p nOsc false []) rfl, start_resetWith p nOsc,
    fun s k hrun hctrl hsilent hvolume hclkmod hpeak hclk hk => ?_⟩
  have hmix : ctrlMode s.ctrl = 0#2 := by rw [hctrl]; decide
  have hfen : ctrlFen s.ctrl = false := by rw [hctrl]; decide
  have hsample : (mixStage s).mixout = ZERO := by
    show normalize s.peak (mixSum s s.clk) = ZERO
    rw [hpeak, mixSum_of_silent hsilent]
    decide
  have hadvance : noAdvance (mixStage s) = false := 
    noAdvance_of_mode (s := mixStage s) (show ctrlMode s.ctrl ≠ 2#2 by rw [hmix]; decide)
  refine ⟨finishFrame (mixStage s), (frameTick_running hrun).trans (frame_of_modeStage (modeStage_of_mix hmix)), ?_,
    out_finishFrame_of_silence (s := mixStage s) hsample hvolume hfen, ?_⟩
  · rw [finishFrame_frame]
    exact hsample
  · rw [clk_finishFrame_of_advance hadvance]
    show advance s.clkmod s.clk = float (k + 1)
    rw [hclkmod, hclk, advance_free hk.le, min_eq_left hk]

end Sys2Proof.Machine
end

section
/-! PROOFS. START's validation (O19). The rows of the table are predicates, each check is shown to decide its row, and checks in
order decide the rows in order. -/

namespace Sys2Proof.Machine

/-! ### The rows of the table (R252) -/

section
variable (s : State)

/-- The modes MIX and FM read the slots. -/
def ReadsSlots : Prop := ctrlMode s.ctrl = 0#2 ∨ ctrlMode s.ctrl = 1#2

/-- Row 0x01. -/
def BadMode : Prop := ctrlMode s.ctrl = 3#2

/-- Row 0x02. -/
def BadSrate : Prop := s.srate = 0#32 ∨ 2 ^ 24 < s.srate.toNat

/-- Row 0x03. -/
def BadClkmod : Prop := 2 ^ 24 < s.clkmod.toNat

/-- Row 0x04 in the modes that read the slots. -/
def BadKind (i : Nat) : Prop := ReadsSlots s ∧ ∃ o, s.osc[i]? = some o ∧ (o.kind = 6#3 ∨ o.kind = 7#3)

/-- Row 0x04 in mode POLY. -/
def BadVkind : Prop := ctrlMode s.ctrl = 2#2 ∧ (ctrlVkind s.ctrl = 6#3 ∨ ctrlVkind s.ctrl = 7#3)

/-- Row 0x05: a Silence slot is not checked. -/
def BadFreq (i : Nat) : Prop :=
  ReadsSlots s ∧ ∃ o, s.osc[i]? = some o ∧ o.kind ∈ [1#3, 2#3, 3#3, 4#3, 5#3] ∧
    ¬(fgt o.freq ZERO = true ∧ feq o.freq INF = false)

/-- Row 0x06: the modulators, whatever their KIND. -/
def BadDepth (i : Nat) : Prop := ctrlMode s.ctrl = 1#2 ∧ 1 ≤ i ∧ ∃ o, s.osc[i]? = some o ∧ isFinite o.depth = false

/-- Row 0x07. -/
def BadCutoff : Prop :=
  ctrlFen s.ctrl = true ∧ ctrlAcalc s.ctrl = true ∧
    ¬(fgt s.cutoff ZERO = true ∧ flt s.cutoff (fdiv (float s.srate.toNat) TWO) = true)

/-- Row 0x08. -/
def BadAlpha : Prop :=
  ctrlFen s.ctrl = true ∧ ctrlAcalc s.ctrl = false ∧ ¬(fge s.alpha ZERO = true ∧ fle s.alpha ONE = true)

/-- Row 0x09. -/
def BadVolume : Prop := ¬(fge s.volume ZERO = true ∧ fle s.volume ONE = true)

end

/-! ### What a check reports -/

/-- The slot reported is the lowest one that fails. -/
def LowestSlot (bad : Nat → Prop) (slot : BitVec 8) : Prop := ∃ i, slot = BitVec.ofNat 8 i ∧ bad i ∧ ∀ j, j < i → ¬bad j

theorem not_lowestSlot {bad : Nat → Prop} (h : ∀ i, ¬bad i) (slot : BitVec 8) : ¬LowestSlot bad slot :=
  fun ⟨i, _, hbad, _⟩ => h i hbad

/-- A check answers nothing exactly when `pass` holds, and a code with a slot exactly when `fails` does. -/
structure Decides (check : Option CheckFailure) (pass : Prop) (fails : BitVec 8 → BitVec 8 → Prop) : Prop where
  passes : check = none ↔ pass
  reports : ∀ code slot, check = some ⟨code, slot⟩ ↔ fails code slot

/-- Of two checks in order the second one counts where the first one passes. -/
theorem Decides.or {c d : Option CheckFailure} {p q : Prop} {f g : BitVec 8 → BitVec 8 → Prop} (hc : Decides c p f)
    (hd : Decides d q g) : Decides (c.or d) (p ∧ q) fun code slot => f code slot ∨ (p ∧ g code slot) where
  passes := by rw [Option.or_eq_none_iff, hc.passes, hd.passes]
  reports code slot := by rw [Option.or_eq_some_iff, hc.passes, hc.reports, hd.reports]

theorem decides_none {pass : Prop} {fails : BitVec 8 → BitVec 8 → Prop} (hpass : pass) (hfails : ∀ code slot, ¬fails code slot) :
    Decides none pass fails where
  passes := iff_of_true rfl hpass
  reports code slot := iff_of_false (by simp) (hfails code slot)

theorem decides_some {pass : Prop} {fails : BitVec 8 → BitVec 8 → Prop} (e : CheckFailure) (hpass : ¬pass)
    (hfails : ∀ code slot, fails code slot ↔ code = e.code ∧ slot = e.slot) : Decides (some e) pass fails where
  passes := iff_of_false (by simp) hpass
  reports code slot := by
    rw [hfails, Option.some.injEq, eq_comm, CheckFailure.mk.injEq]

/-- A row that names no slot. -/
theorem decides_plainCheck (row : BitVec 8) {b : Bool} {bad : Prop} (h : b = true ↔ bad) :
    Decides (plainCheck row b) (¬bad) fun code slot => code = row ∧ slot = 0x00#8 ∧ bad := by
  cases b with
  | false =>
    have hpass : ¬bad := h.not.1 Bool.false_ne_true
    exact decides_none hpass fun _ _ hfail => hpass hfail.2.2
  | true => exact decides_some ⟨row, 0x00#8⟩ (not_not.2 (h.1 rfl)) fun _ _ => by simp [h.1 rfl]

section
variable {slots : List OscSlot} {p : OscSlot → Bool}

/-- The library's search by index, with the slots as lookups. -/
theorem findIdx?_eq_some_iff_lowest {i : Nat} :
    slots.findIdx? p = some i ↔
      (∃ o, slots[i]? = some o ∧ p o = true) ∧ ∀ j, j < i → ¬∃ o, slots[j]? = some o ∧ p o = true := by
  rw [List.findIdx?_eq_some_iff_getElem]
  constructor
  · rintro ⟨hi, hfails, hlow⟩
    refine ⟨⟨_, List.getElem?_eq_getElem hi, hfails⟩, fun j hj => ?_⟩
    rintro ⟨o, ho, hfo⟩
    obtain ⟨_, rfl⟩ := List.getElem?_eq_some_iff.1 ho
    exact hlow j hj hfo
  · rintro ⟨⟨o, ho, hfails⟩, hlow⟩
    obtain ⟨hi, rfl⟩ := List.getElem?_eq_some_iff.1 ho
    exact ⟨hi, hfails, fun j hj hfj => hlow j hj ⟨_, List.getElem?_eq_getElem (hj.trans hi), hfj⟩⟩

/-- A row that names the lowest failing slot, of the slots counted from `base`. -/
theorem decides_slotCheck (row : BitVec 8) {base : Nat} {bad : Nat → Prop} (hbelow : ∀ i, bad i → base ≤ i)
    (h : ∀ i, bad (base + i) ↔ ∃ o, slots[i]? = some o ∧ p o = true) :
    Decides (slotCheck row base slots p) (∀ i, ¬bad i) fun code slot => code = row ∧ LowestSlot bad slot where
  passes := by
    rw [slotCheck_eq_none_iff]
    constructor
    · intro hpass i hbad
      obtain ⟨k, rfl⟩ := Nat.exists_eq_add_of_le (hbelow i hbad)
      obtain ⟨o, ho, hfo⟩ := (h k).1 hbad
      exact elim_of_eq_false (hpass o (List.mem_of_getElem? ho)) hfo
    · intro hpass o ho
      obtain ⟨k, hk⟩ := List.mem_iff_getElem?.1 ho
      exact eq_false_of_ne_true fun hfo => hpass (base + k) ((h k).2 ⟨o, hk, hfo⟩)
  reports code slot := by
    simp only [slotCheck, Option.map_eq_some_iff, findIdx?_eq_some_iff_lowest, ← h, CheckFailure.mk.injEq]
    constructor
    · rintro ⟨k, ⟨hbad, hlow⟩, rfl, rfl⟩
      refine ⟨rfl, base + k, rfl, hbad, fun j hj hbadj => ?_⟩
      obtain ⟨m, rfl⟩ := Nat.exists_eq_add_of_le (hbelow j hbadj)
      exact hlow m (by omega) hbadj
    · rintro ⟨rfl, i, rfl, hbad, hlow⟩
      obtain ⟨k, rfl⟩ := Nat.exists_eq_add_of_le (hbelow i hbad)
      exact ⟨k, ⟨hbad, fun j hj => hlow (base + j) (by omega)⟩, rfl, rfl⟩

/-- A row of the slots that applies in some modes only. -/
theorem decides_slotCheck_of_mode (row : BitVec 8) {applies : Prop} [Decidable applies] {base : Nat} {bad : Nat → Prop}
    (hbelow : ∀ i, bad i → base ≤ i) (h : ∀ i, bad (base + i) ↔ applies ∧ ∃ o, slots[i]? = some o ∧ p o = true) :
    Decides (if applies then slotCheck row base slots p else none) (∀ i, ¬bad i)
      fun code slot => code = row ∧ LowestSlot bad slot := by
  by_cases ha : applies
  · rw [if_pos ha]
    exact decides_slotCheck row hbelow fun i => (h i).trans (and_iff_right ha)
  · have hpass : ∀ i, ¬bad i := fun i hbad => by
      obtain ⟨k, rfl⟩ := Nat.exists_eq_add_of_le (hbelow i hbad)
      exact ha ((h k).1 hbad).1
    rw [if_neg ha]
    exact decides_none hpass fun _ slot hfail => not_lowestSlot hpass slot hfail.2

end

/-! ### The nine checks -/

theorem reservedKind_iff (k : BitVec 3) : reservedKind k = true ↔ k = 6#3 ∨ k = 7#3 := by
  revert k
  decide

section
variable (s : State)

theorem readsSlots_iff : readsSlots s = true ↔ ReadsSlots s := by simp [readsSlots, ReadsSlots]

theorem decides_checkMode : Decides (checkMode s) (¬BadMode s) fun code slot => code = 0x01#8 ∧ slot = 0x00#8 ∧ BadMode s :=
  decides_plainCheck _ decide_eq_true_iff

theorem decides_checkSrate :
    Decides (checkSrate s) (¬BadSrate s) fun code slot => code = 0x02#8 ∧ slot = 0x00#8 ∧ BadSrate s := by
  have hzero : s.srate.toNat = 0 ↔ s.srate = 0#32 := BitVec.toNat_inj (y := 0#32)
  exact decides_plainCheck _ (by simp only [Bool.or_eq_true, decide_eq_true_eq, hzero, BadSrate])

theorem decides_checkClkmod :
    Decides (checkClkmod s) (¬BadClkmod s) fun code slot => code = 0x03#8 ∧ slot = 0x00#8 ∧ BadClkmod s :=
  decides_plainCheck _ decide_eq_true_iff

theorem decides_checkKind :
    Decides (checkKind s) ((∀ i, ¬BadKind s i) ∧ ¬BadVkind s) fun code slot =>
      code = 0x04#8 ∧ (LowestSlot (BadKind s) slot ∨ (slot = 0xFF#8 ∧ BadVkind s)) := by
  unfold checkKind
  by_cases hreads : ReadsSlots s
  · have hvkind : ¬BadVkind s := fun ⟨hpoly, _⟩ => by simp [ReadsSlots, hpoly] at hreads
    rw [if_pos ((readsSlots_iff s).2 hreads)]
    simp only [hvkind, not_false_eq_true, and_true, and_false, or_false]
    refine decides_slotCheck _ (fun i _ => i.zero_le) fun i => ?_
    simp only [Nat.zero_add, BadKind, hreads, true_and, reservedKind_iff]
  · have hkind : ∀ i, ¬BadKind s i := fun i hbad => hreads hbad.1
    have hlow := not_lowestSlot hkind
    rw [if_neg ((readsSlots_iff s).not.2 hreads)]
    simp only [reservedKind_iff]
    split
    · next hvkind =>
      have hbad : BadVkind s := hvkind
      exact decides_some ⟨0x04#8, 0xFF#8⟩ (fun hpass => hpass.2 hbad) fun _ slot => by simp [hlow slot, hbad]
    · next hvkind =>
      exact decides_none ⟨hkind, hvkind⟩ fun _ slot ⟨_, hfail⟩ => hfail.elim (hlow slot) fun h => hvkind h.2

theorem decides_checkFreq :
    Decides (checkFreq s) (∀ i, ¬BadFreq s i) fun code slot => code = 0x05#8 ∧ LowestSlot (BadFreq s) slot := by
  refine decides_slotCheck_of_mode _ (fun i _ => i.zero_le) fun i => ?_
  simp only [Nat.zero_add, BadFreq, readsSlots_iff, takesPart_eq_mem, isPosFinite, Bool.and_eq_true, Bool.not_eq_true',
    decide_eq_true_eq, ← Bool.not_eq_true]

theorem decides_checkDepth :
    Decides (checkDepth s) (∀ i, ¬BadDepth s i) fun code slot => code = 0x06#8 ∧ LowestSlot (BadDepth s) slot := by
  refine decides_slotCheck_of_mode _ (fun i hbad => hbad.2.1) fun i => ?_
  simp only [BadDepth, modulators, List.getElem?_tail, Nat.le_add_left, true_and, Bool.not_eq_true', Nat.add_comm 1]

theorem decides_checkCutoff :
    Decides (checkCutoff s) (¬BadCutoff s) fun code slot => code = 0x07#8 ∧ slot = 0x00#8 ∧ BadCutoff s :=
  decides_plainCheck _ (by
    simp only [Bool.and_eq_true, Bool.not_eq_true', ← Bool.not_eq_true, sampleRate, BadCutoff, and_assoc])

theorem decides_checkAlpha :
    Decides (checkAlpha s) (¬BadAlpha s) fun code slot => code = 0x08#8 ∧ slot = 0x00#8 ∧ BadAlpha s :=
  decides_plainCheck _ (by
    simp only [Bool.and_eq_true, Bool.not_eq_true', ← Bool.not_eq_true, inUnitPos, fge, BadAlpha, and_assoc])

theorem decides_checkVolume :
    Decides (checkVolume s) (¬BadVolume s) fun code slot => code = 0x09#8 ∧ slot = 0x00#8 ∧ BadVolume s :=
  decides_plainCheck _ (by simp only [Bool.and_eq_true, Bool.not_eq_true', ← Bool.not_eq_true, inUnitPos, fge, BadVolume])

/-! ### The order of the checks -/

/-- Checks 0x01 to 0x03 pass. -/
def PassesClkmod : Prop := ¬BadMode s ∧ ¬BadSrate s ∧ ¬BadClkmod s

/-- Checks 0x01 to 0x04 pass. -/
def PassesKind : Prop := PassesClkmod s ∧ (∀ i, ¬BadKind s i) ∧ ¬BadVkind s

/-- Checks 0x01 to 0x05 pass. -/
def PassesFreq : Prop := PassesKind s ∧ ∀ i, ¬BadFreq s i

/-- Checks 0x01 to 0x06 pass. -/
def PassesDepth : Prop := PassesFreq s ∧ ∀ i, ¬BadDepth s i

/-- The rows of the table in code order, each with the checks before it. -/
def FirstFailure (code slot : BitVec 8) : Prop :=
  (code = 0x01#8 ∧ slot = 0x00#8 ∧ BadMode s) ∨
  (code = 0x02#8 ∧ slot = 0x00#8 ∧ ¬BadMode s ∧ BadSrate s) ∨
  (code = 0x03#8 ∧ slot = 0x00#8 ∧ ¬BadMode s ∧ ¬BadSrate s ∧ BadClkmod s) ∨
  (code = 0x04#8 ∧ PassesClkmod s ∧ (LowestSlot (BadKind s) slot ∨ (slot = 0xFF#8 ∧ BadVkind s))) ∨
  (code = 0x05#8 ∧ PassesKind s ∧ LowestSlot (BadFreq s) slot) ∨
  (code = 0x06#8 ∧ PassesFreq s ∧ LowestSlot (BadDepth s) slot) ∨
  (code = 0x07#8 ∧ slot = 0x00#8 ∧ PassesDepth s ∧ BadCutoff s) ∨
  (code = 0x08#8 ∧ slot = 0x00#8 ∧ PassesDepth s ∧ ¬BadCutoff s ∧ BadAlpha s) ∨
  (code = 0x09#8 ∧ slot = 0x00#8 ∧ PassesDepth s ∧ ¬BadCutoff s ∧ ¬BadAlpha s ∧ BadVolume s)

theorem decides_validate :
    Decides (validate s) (PassesDepth s ∧ ¬BadCutoff s ∧ ¬BadAlpha s ∧ ¬BadVolume s) (FirstFailure s) := by
  have h := (decides_checkMode s).or (decides_checkSrate s) |>.or (decides_checkClkmod s) |>.or (decides_checkKind s)
    |>.or (decides_checkFreq s) |>.or (decides_checkDepth s) |>.or (decides_checkCutoff s) |>.or (decides_checkAlpha s)
    |>.or (decides_checkVolume s)
  refine ⟨h.passes.trans ?_, fun code slot => (h.reports code slot).trans ?_⟩
  · simp only [PassesDepth, PassesFreq, PassesKind, PassesClkmod, and_assoc]
  · -- a row is reached when the rows before it pass: the two sides list the same conjuncts
    simp only [FirstFailure, PassesDepth, PassesFreq, PassesKind, PassesClkmod, or_assoc, and_assoc, and_left_comm]

end

/-- Settles O19: the checks in their order are the rows of the table in theirs. -/
theorem validationReportsFirstFailure : Obligations.ValidationReportsFirstFailure := fun s code slot =>
  ⟨(decides_validate s).passes, (decides_validate s).reports code slot⟩

end Sys2Proof.Machine
end

section
/-! PROOFS. The reserved KIND and MODE codes (O20): their operations and START's refusal are the same failed START. -/

namespace Sys2Proof.Machine

/-! ### A refused code (R97, R98, R222) -/

theorem exec_start_of_failure {s : State} {code slot : BitVec 8} (hrun : s.status.run = false)
    (hv : validate s = some ⟨code, slot⟩) : exec .start s = .next (startFailed code slot s) := by
  have hop : startOp s = startFailed code slot s := by simp [startOp, hrun, hv]
  exact congrArg Host.Outcome.next hop

theorem validate_of_reservedMode {s : State} (hmode : ctrlMode s.ctrl = 3#2) : validate s = some ⟨0x01#8, 0x00#8⟩ := by
  simp [validate, checkMode, plainCheck, hmode]

/-- ERRCODE as a number (R25). -/
theorem slot_append_code {i : Nat} (hi : i < 256) (code : BitVec 8) :
    (BitVec.ofNat 8 i ++ code).setWidth 32 = BitVec.ofNat 32 (i * 256 + code.toNat) := by
  apply BitVec.eq_of_toNat_eq
  have hcode := code.isLt
  rw [BitVec.toNat_setWidth, BitVec.toNat_append, ← Nat.shiftLeft_add_eq_or_of_lt hcode, Nat.shiftLeft_eq, BitVec.toNat_ofNat,
    BitVec.toNat_ofNat, Nat.mod_eq_of_lt hi]

/-- Settles O20: the operations of the rows and a refused START are the one `startFailed`. -/
theorem reservedCodesAreRefused : Obligations.ReservedCodesAreRefused := by
  intro s i hi
  have hword : (BitVec.ofNat 8 i ++ 0x04#8).setWidth 32 = BitVec.ofNat 32 (i * 256 + 4) :=
    slot_append_code (hi.trans (by decide)) 0x04#8
  refine ⟨?_, rfl, rfl, rfl, rfl, exec_start_of_failure, exec_start_of_failure,
    fun hrun hmode => exec_start_of_failure hrun (validate_of_reservedMode hmode)⟩
  rw [← hword]
  rfl

end Sys2Proof.Machine
end
